-- ==== Sys2Proof/Word.lean ====
section
/-!
DEFINITION. The widths of the engine's values (00_scope.md R9, R10): a transport byte, a controller
value and a payload byte are 8 bits, a nibble is 4 bits, a command word is 32 bits, a pin position is
one of 0 to 7. Bit 0 is the least significant bit; every value is unsigned.
-/

namespace Sys2Proof

/-- An 8-bit value: transport byte, controller instruction or data byte, operand, status (R9). -/
abbrev Byte := BitVec 8

/-- A 4-bit value, the payload of one nibble frame (R9, R17). -/
abbrev Nibble := BitVec 4

/-- A 32-bit host command word (R85). -/
abbrev Word := BitVec 32

/-- A pin position, one of 0 to 7 (R25). -/
abbrev Pos := Fin 8

end Sys2Proof
end

