-- ==== Sys2Proof/Config.lean ====
section
/-!
DEFINITION. The parameters the spec asks a model to hold in one configuration record: the delays of
00_scope.md R6, the address table of R7, the controller instruction constants of 30_encoding.md R100 to
R112, and the backlight value CONSTRUCT writes (92_eei_decisions.md D12, D28, D31, D38, D39). The open
tick period T_TICK_NS (R9) is not here: it is the field tickNs of State, so that fixing these values
fixes no tick.
-/

namespace Sys2Proof

/-- The configuration record. A claim can quantify over it, or fix it to `Config.spec`. -/
structure Config where
  /-- Delays in microseconds, each a minimum (R6). -/
  tSettle : Nat
  tEnHold : Nat
  tPostStrobe : Nat
  tInstr : Nat
  tClear : Nat
  tPower : Nat
  tReset1 : Nat
  tReset2 : Nat
  /-- Row base addresses, line 0 first (R7). -/
  rowBase : List Byte
  /-- Controller instruction bytes and prefixes (R100 to R109). -/
  lcdClear : Byte
  lcdHome : Byte
  entryPrefix : Byte
  displayPrefix : Byte
  shiftLeft : Byte
  shiftRight : Byte
  functionPrefix : Byte
  nop : Byte
  setDdram : Byte
  setCgram : Byte
  /-- The nibbles of the initialization (R110). -/
  nibReset : Nibble
  nib4Bit : Nibble
  /-- The instruction bytes followed by the long settle delay (R112). -/
  longSettle : List Byte
  /-- The backlight value a CONSTRUCT writes (R221, D12). -/
  blInit : Bool
deriving DecidableEq, Repr

/-- The spec's values. The delays, the row bases, `setDdram` and the two nibbles are the source's; the
other instruction constants are the spec's own, from general knowledge (G1, G8, G9, G10), and are
marked so in the assumption log. -/
def Config.spec : Config where
  tSettle := 1
  tEnHold := 200
  tPostStrobe := 30
  tInstr := 40
  tClear := 1600
  tPower := 15000
  tReset1 := 4100
  tReset2 := 100
  rowBase := [0x00, 0x40, 0x10, 0x54]
  lcdClear := 0x01
  lcdHome := 0x02
  entryPrefix := 0x04
  displayPrefix := 0x08
  shiftLeft := 0x18
  shiftRight := 0x1C
  functionPrefix := 0x20
  nop := 0x00
  setDdram := 0x80
  setCgram := 0x40
  nibReset := 0x3
  nib4Bit := 0x2
  longSettle := [0x01, 0x02, 0x03]
  blInit := false

end Sys2Proof
end

