-- ==== Sys2Proof/Syntax/Operand.lean ====
section
/-!
DEFINITION. The operand types of the instructions, and the four formats in which an instruction is
encoded (30_encoding.md R85, R89, R92, and the format column of opcode_table.json).
-/

namespace Sys2Proof

/-- The sixteen mode setters as operands of CONSTRUCT and SET_MODE (30_encoding.md R92). -/
inductive Setter where
  | entryIncrement | entryDecrement | entryShiftOn | entryShiftOff
  | displayOn | displayOff | cursorOn | cursorOff | blinkOn | blinkOff
  | fourBitMode | eightBitMode | oneLine | twoLine | dots5x8 | dots5x10
deriving DecidableEq, Repr

/-- The nine pin-map bytes of a CONSTRUCT payload in their order of transfer (R89). They are not
checked by the decoder (R91), so each is any byte. -/
structure PinBytes where
  rs : Byte
  rw : Byte
  en : Byte
  d4 : Byte
  d5 : Byte
  d6 : Byte
  d7 : Byte
  bl : Byte
  pol : Byte
deriving DecidableEq, Repr

/-- An internal operation as it is encoded: a setter byte inside a payload (R92), or a value the
engine emits, an 8-bit controller instruction (R100 to R109) or a single nibble (R110). A host cannot
issue one by itself (R98). -/
inductive Internal where
  | setter (b : Byte)
  | controller (b : Byte)
  | nibble (n : Nibble)
deriving DecidableEq, Repr

/-- One encoded instruction: a command word with its payload (R85, R87), or an internal operation. -/
inductive Code where
  | command (word : Word) (payload : List Byte)
  | internal (x : Internal)
deriving DecidableEq, Repr

/-- Why an encoding is not an instruction (R91, R95). The first four are the command INVALID_COMMAND
cases, the last two concern the other formats. -/
inductive Reject where
  /-- The opcode is not in the table of R90. -/
  | unknownOpcode (op : Byte)
  /-- The payload length N is not a legal N of the opcode's row. -/
  | illegalLength (op n : Byte)
  /-- A byte that must be a setter code is above 0x0F. -/
  | notASetter (b : Byte)
  /-- The payload handed over does not have the N bytes its word announces (a call the engine never
  makes, R84). -/
  | payloadMismatch
  /-- A controller byte the engine has no instruction row for. -/
  | notEmittedByte (b : Byte)
  /-- A nibble the initialization never sends by itself. -/
  | notEmittedNibble (n : Nibble)
deriving DecidableEq, Repr

end Sys2Proof
end

