-- ==== Sys2Proof/Machine/State.lean ====
section
/-!
DEFINITION. The state of one engine (10_state.md), the parameters of the step relation (R41), the
observation (00_scope.md R14), and the state after hardware reset (R40, R310).
-/

namespace Sys2Proof.Machine

open Sys2Proof

/-- `LIFE` (R24). The code 3 never occurs, so it has no constructor. -/
inductive Life where
  | unconfigured | initialising | ready
deriving DecidableEq, Repr

/-- `PM`: eight positions and the polarity, `true` = active-low (R25). -/
structure PinMap where
  rs : Pos
  rw : Pos
  en : Pos
  d4 : Pos
  d5 : Pos
  d6 : Pos
  d7 : Pos
  bl : Pos
  pol : Bool
deriving DecidableEq, Repr

/-- `MODE`: the three mode fields, 8-bit registers (R28 to R30). -/
structure Mode where
  entry : Byte
  display : Byte
  function : Byte
deriving DecidableEq, Repr

/-- A micro-op (R14): a minimum delay in microseconds, or one bus write. -/
inductive MicroOp where
  | wait (t : Nat)
  | tx (b : Byte)
deriving DecidableEq, Repr

/-- What an observer sees (R14): a micro-op performed, or a failing write. -/
inductive Event where
  | wait (t : Nat)
  | tx (b : Byte)
  | txFail (b : Byte)
deriving DecidableEq, Repr

/-- One look at the transport while a byte is presented (R52, R53): no answer yet (`tx_done` = 0), or
the answer ok or fail. -/
inductive TxAnswer where
  | notYet | ok | fail
deriving DecidableEq, Repr

/-- The statuses a command can end with (60_exceptions.md R270). -/
inductive Status where
  | ok | transportFailure | invalidConfiguration | invalidAddress | notReady | invalidCommand
deriving DecidableEq, Repr

/-- A response the host has taken (R88). -/
structure Response where
  status : Byte
  value : Byte
deriving DecidableEq, Repr

/-- A command the engine is taking from the host port: its word, and the payload bytes taken so far (R84). -/
structure Taking where
  word : Word
  bytes : List Byte
deriving DecidableEq, Repr

/-- Why a step can stop the machine. The spec names no such reason: every error is a status of the
response (R270, R282) and a transport that never answers is a hang, in which the engine stays as it is
(R53). So the type has no constructor and nobody raises one: no step can fault (log 21). -/
inductive Fault
deriving DecidableEq, Repr

/-- Why a step can be refused. -/
inductive Refusal where
  /-- Raised by an arm of exec whose instruction has no meaning yet; no arm does. Safe: the run stops. -/
  | notModelled (mnemonic : String)
deriving DecidableEq, Repr

/-- The state of one engine with its surroundings. -/
structure State where
  -- control and status (R23, R24, R33)
  life : Life
  busy : Bool
  fault : Bool
  -- connection registers (R25, R28 to R32) and whether they hold a value (R40)
  pm : PinMap
  mode : Mode
  bl : Bool
  connHeld : Bool
  -- operand latches (R21) and whether they hold a value (R40)
  cmdOp : Byte
  cmdA : Byte
  cmdB : Byte
  cmdN : Byte
  pbuf : List Byte
  cmdHeld : Bool
  -- sequencer position (R22)
  prog : List MicroOp
  seq : Nat
  -- delay counter and transport port (R36, R37, R52)
  timer : Nat
  txreg : Byte
  txValid : Bool
  -- host port: the command being taken, if the word has been taken and its payload not whole (R84)
  taking : Option Taking
  -- response port (R84, R88)
  rspValid : Bool
  rspStatus : Byte
  rspValue : Byte
  -- parameters of the step relation (R9, R41): configuration, tick period, and what the outside does
  cfg : Config
  tickNs : Nat
  rst : List Bool
  -- words and payload: what the host presents, in order, no entry for a step without one (log 16)
  words : List Word
  payload : List Byte
  answers : List TxAnswer
  rspReady : List Bool
  issue : Option Internal
  -- the observation (R14)
  trace : List Event
  responses : List Response
deriving DecidableEq, Repr

/-- The named value of `PM` while it holds none (R40; log 4). -/
def PinMap.zero : PinMap := ⟨0, 0, 0, 0, 0, 0, 0, 0, false⟩

/-- The named value of `MODE` while it holds none (R40; log 4). -/
def Mode.zero : Mode := ⟨0, 0, 0⟩

/-- The state right after hardware reset (R40, R310), with no command presented, no answer of the
transport and nothing observed. -/
def State.reset : State where
  life := .unconfigured
  busy := false
  fault := false
  pm := PinMap.zero
  mode := Mode.zero
  bl := false
  connHeld := false
  cmdOp := 0
  cmdA := 0
  cmdB := 0
  cmdN := 0
  pbuf := []
  cmdHeld := false
  prog := []
  seq := 0
  timer := 0
  txreg := 0
  txValid := false
  taking := none
  rspValid := false
  rspStatus := 0
  rspValue := 0
  cfg := Config.spec
  tickNs := 1000000
  rst := []
  words := []
  payload := []
  answers := []
  rspReady := []
  issue := none
  trace := []
  responses := []

end Sys2Proof.Machine
end

