-- ==== Sys2Proof/Machine/Flags.lean ====
section
/-!
DEFINITION. The flags that are views of the state (10_state.md R23, R39) and the port outputs
(30_encoding.md R84). The engine has no arithmetic condition codes (R23).
-/

namespace Sys2Proof.Machine

/-- The two bits of `LIFE` (R24). -/
def Life.code : Life → BitVec 2
  | .unconfigured => 0
  | .initialising => 1
  | .ready => 2

/-- `st_busy` = BUSY (R39). -/
def State.stBusy (s : State) : Bool := s.busy

/-- `st_ready` = READY = (LIFE == READY_ST) (R23, R39). -/
def State.stReady (s : State) : Bool := decide (s.life = .ready)

/-- `st_fault` = FAULT (R33, R39). -/
def State.stFault (s : State) : Bool := s.fault

/-- The reset input is asserted in this step (R310). -/
def State.resetAsserted (s : State) : Bool := s.rst.headD false

/-- `cmd_ready`: a command word is taken in this step if one is presented. Only when BUSY = 0 (R84, R290),
no response waits for the host (R291; log 5), and no command is being taken (log 6). -/
def State.cmdReady (s : State) : Bool :=
  !s.resetAsserted && !s.busy && !s.rspValid && s.taking.isNone

/-- `pl_ready`: a payload byte is taken in this step if one is presented, which is while a command is
being taken (R84; log 6). -/
def State.plReady (s : State) : Bool :=
  !s.resetAsserted && !s.busy && !s.rspValid && s.taking.isSome

/-- `rsp_ready` in this step (R84). -/
def State.hostReady (s : State) : Bool := s.rspReady.headD true

end Sys2Proof.Machine
end

