-- ==== Sys2Proof/Machine/Operands.lean ====
section
/-!
DEFINITION. The operand computations: nibble extraction (41_nibble_write.md R161), pin-map validation
(40_frame_encoder.md R130), setters on MODE (42_mode_state.md R170 to R187), the display address
(44_display_api.md R241), and the controller instruction bytes (30_encoding.md R100 to R111).
-/

namespace Sys2Proof.Machine

open Sys2Proof

/-! ### Nibbles -/

/-- `v[7:4]`. -/
def highNibble (v : Byte) : Nibble := v.extractLsb' 4 4

/-- `v[3:0]`. -/
def lowNibble (v : Byte) : Nibble := v.extractLsb' 0 4

/-! ### Pin map -/

/-- The eight positions in the order of R25. -/
def PinMap.positions (pm : PinMap) : List Pos :=
  [pm.rs, pm.rw, pm.en, pm.d4, pm.d5, pm.d6, pm.d7, pm.bl]

/-- The pin map invariant of R26: the eight positions are pairwise distinct. -/
abbrev PinMap.Valid (pm : PinMap) : Prop := pm.positions.Nodup

/-- A position byte, if it is in 0..7. -/
def positionOf (b : Byte) : Option Pos :=
  if h : b.toNat < 8 then some ⟨b.toNat, h⟩ else none

/-- A polarity byte, if it is 0 or 1. -/
def polarityOf (b : Byte) : Option Bool :=
  if b = 0 then some false else if b = 1 then some true else none

/-- The nine bytes as a pin map, if each is in its range. -/
def pinMapOf (p : PinBytes) : Option PinMap := do
  let rs ← positionOf p.rs
  let rw ← positionOf p.rw
  let en ← positionOf p.en
  let d4 ← positionOf p.d4
  let d5 ← positionOf p.d5
  let d6 ← positionOf p.d6
  let d7 ← positionOf p.d7
  let bl ← positionOf p.bl
  let pol ← polarityOf p.pol
  return ⟨rs, rw, en, d4, d5, d6, d7, bl, pol⟩

/-- `VALIDATE_PINMAP` (R130); none is INVALID_CONFIGURATION. -/
def validatePinMap (p : PinBytes) : Option PinMap :=
  match pinMapOf p with
  | none => none
  | some pm => if pm.Valid then some pm else none

/-! ### Modes -/

/-- `DEFAULT` (R34). -/
def Mode.default : Mode := ⟨0x02, 0x04, 0x08⟩

/-- The masks of R31: the bits no setter can set are 0. -/
abbrev Mode.Masked (m : Mode) : Prop :=
  m.entry &&& 0xFC = 0 ∧ m.display &&& 0xF8 = 0 ∧ m.function &&& 0xE3 = 0

/-- The effect of one setter on MODE (R171 to R186). -/
def Setter.apply (x : Setter) (m : Mode) : Mode :=
  match x with
  | .entryIncrement => { m with entry := m.entry ||| 0x02 }
  | .entryDecrement => { m with entry := m.entry &&& 0xFD }
  | .entryShiftOn => { m with entry := m.entry ||| 0x01 }
  | .entryShiftOff => { m with entry := m.entry &&& 0xFE }
  | .displayOn => { m with display := m.display ||| 0x04 }
  | .displayOff => { m with display := m.display &&& 0xFB }
  | .cursorOn => { m with display := m.display ||| 0x02 }
  | .cursorOff => { m with display := m.display &&& 0xFD }
  | .blinkOn => { m with display := m.display ||| 0x01 }
  | .blinkOff => { m with display := m.display &&& 0xFE }
  | .fourBitMode => { m with function := m.function &&& 0xEF }
  | .eightBitMode => { m with function := m.function ||| 0x10 }
  | .oneLine => { m with function := m.function &&& 0xF7 }
  | .twoLine => { m with function := m.function ||| 0x08 }
  | .dots5x8 => { m with function := m.function &&& 0xFB }
  | .dots5x10 => { m with function := m.function ||| 0x04 }

/-- `APPLY(list, m)`: left to right (R187). -/
def applySetters : List Setter → Mode → Mode
  | [], m => m
  | x :: rest, m => applySetters rest (Setter.apply x m)

/-! ### Query values (R94, R193 to R199) -/

/-- A Boolean query: 0x01 for true, 0x00 for false. -/
def boolValue (b : Bool) : Byte := if b then 0x01 else 0x00

/-- Bus width in bits. -/
def busWidthValue (m : Mode) : Byte := if m.function.getLsbD 4 then 0x08 else 0x04

/-- Number of display lines. -/
def lineCountValue (m : Mode) : Byte := if m.function.getLsbD 3 then 0x02 else 0x01

/-! ### Addresses and controller instruction bytes -/

/-- `ROW_BASE[line]` (R7); asked for lines 0 to 3 only. -/
def rowBaseOf (cfg : Config) (line : Byte) : Byte := cfg.rowBase.getD line.toNat 0

/-- `ADDRESS_OF(line, column)`, modulo 256 (R241). -/
def addressOf (cfg : Config) (line column : Byte) : Byte := rowBaseOf cfg line + column

/-- The set-address instruction byte (R108, R240). -/
def setAddressByte (cfg : Config) (a : Byte) : Byte := cfg.setDdram ||| a

/-- The entry-mode-set byte (R102, R111). -/
def entryByte (cfg : Config) (field : Byte) : Byte := cfg.entryPrefix ||| field

/-- The display-mode-set byte (R103, R111). -/
def displayByte (cfg : Config) (field : Byte) : Byte := cfg.displayPrefix ||| field

/-- The function-mode-set byte (R106, R111). -/
def functionByte (cfg : Config) (field : Byte) : Byte := cfg.functionPrefix ||| field

/-- The mode bit `k` of a field, given as a flag (R28 to R30). -/
def modeBit (f : Bool) (k : Nat) : Byte := if f then 1 <<< k else 0

end Sys2Proof.Machine
end

