-- ==== Sys2Proof/Machine/Frame.lean ====
section
/-!
DEFINITION. From values to micro-ops: the frame encoder (40_frame_encoder.md), the strobe and byte
lists (41_nibble_write.md R150 to R157), the commit (42_mode_state.md R188) and the initialization list
(43_init_sequencer.md R222).
-/

namespace Sys2Proof.Machine

open Sys2Proof

/-- `bit(p) = 1 << p` (R10). -/
def bit (p : Pos) : Byte := 1 <<< p.val

/-- A 1-bit value placed at a position. -/
def place (b : Bool) (p : Pos) : Byte := if b then bit p else 0

/-- `ENCODE_FRAME(rs, n)` (R132): the base frame, enable low. The read/write bit is the constant 0
(R82), the backlight bit is `BL ^ PM.POL` (R133). -/
def encodeFrame (pm : PinMap) (bl rs : Bool) (n : Nibble) : Byte :=
  place (n.getLsbD 0) pm.d4 ||| place (n.getLsbD 1) pm.d5 ||| place (n.getLsbD 2) pm.d6 |||
  place (n.getLsbD 3) pm.d7 ||| place rs pm.rs ||| place false pm.rw ||| place (bl ^^ pm.pol) pm.bl

/-- `SPLIT(rs, v)` (R134): high nibble frame, low nibble frame. -/
def split (pm : PinMap) (bl rs : Bool) (v : Byte) : Byte × Byte :=
  (encodeFrame pm bl rs (highNibble v), encodeFrame pm bl rs (lowNibble v))

/-- `NIBBLE_OF(b)` (R136): the data lines of a frame byte, D7 first. A checking function, not hardware. -/
def nibbleOf (pm : PinMap) (b : Byte) : Nibble :=
  ((BitVec.ofBool (b.getLsbD pm.d7.val)).setWidth 4 <<< 3) |||
  ((BitVec.ofBool (b.getLsbD pm.d6.val)).setWidth 4 <<< 2) |||
  ((BitVec.ofBool (b.getLsbD pm.d5.val)).setWidth 4 <<< 1) |||
  (BitVec.ofBool (b.getLsbD pm.d4.val)).setWidth 4

/-- `NIBBLE(rs, n)` (R150): one strobed nibble frame. -/
def nibbleOps (cfg : Config) (pm : PinMap) (bl rs : Bool) (n : Nibble) : List MicroOp :=
  let f := encodeFrame pm bl rs n
  let e := f ||| bit pm.en
  [.wait cfg.tSettle, .tx f, .wait cfg.tSettle, .tx e, .wait cfg.tEnHold,
   .wait cfg.tSettle, .tx f, .wait cfg.tPostStrobe]

/-- `SETTLE_OF(rs, v)` (R112, R153). -/
def settleOf (cfg : Config) (rs : Bool) (v : Byte) : Nat :=
  if !rs && cfg.longSettle.contains v then cfg.tClear else cfg.tInstr

/-- `BYTE(rs, v)` (R152). -/
def byteOps (cfg : Config) (pm : PinMap) (bl rs : Bool) (v : Byte) : List MicroOp :=
  nibbleOps cfg pm bl rs (highNibble v) ++ nibbleOps cfg pm bl rs (lowNibble v) ++
  [.wait (settleOf cfg rs v)]

/-- `INSTR(v) = BYTE(0, v)` (R157, level per R81). -/
def instrOps (cfg : Config) (pm : PinMap) (bl : Bool) (v : Byte) : List MicroOp :=
  byteOps cfg pm bl false v

/-- `DATA(v) = BYTE(1, v)` (R157, level per R81). -/
def dataOps (cfg : Config) (pm : PinMap) (bl : Bool) (v : Byte) : List MicroOp :=
  byteOps cfg pm bl true v

/-- `DATA(c[0]) ++ DATA(c[1]) ++ ...`, first to last (R57). -/
def dataListOps (cfg : Config) (pm : PinMap) (bl : Bool) : List Byte → List MicroOp
  | [] => []
  | v :: rest => dataOps cfg pm bl v ++ dataListOps cfg pm bl rest

/-- `COMMIT()` (R188): entry, display, function. -/
def commitOps (cfg : Config) (pm : PinMap) (bl : Bool) (m : Mode) : List MicroOp :=
  instrOps cfg pm bl (entryByte cfg m.entry) ++ instrOps cfg pm bl (displayByte cfg m.display) ++
  instrOps cfg pm bl (functionByte cfg m.function)

/-- The initialization list (R222), steps 1 to 7 of the source. -/
def initOps (cfg : Config) (pm : PinMap) (bl : Bool) (m : Mode) : List MicroOp :=
  [.wait cfg.tPower] ++
  (nibbleOps cfg pm bl false cfg.nibReset ++ [.wait cfg.tReset1]) ++
  (nibbleOps cfg pm bl false cfg.nibReset ++ [.wait cfg.tReset2]) ++
  (nibbleOps cfg pm bl false cfg.nibReset ++ [.wait cfg.tInstr]) ++
  (nibbleOps cfg pm bl false cfg.nib4Bit ++ [.wait cfg.tInstr]) ++
  instrOps cfg pm bl cfg.lcdClear ++
  commitOps cfg pm bl m

/-! ### Reading a micro-op list -/

/-- The bytes a micro-op list writes, in order. -/
def txBytes : List MicroOp → List Byte
  | [] => []
  | .wait _ :: rest => txBytes rest
  | .tx b :: rest => b :: txBytes rest

/-- The sum of a micro-op list's waits in microseconds (R340). -/
def waitSum : List MicroOp → Nat
  | [] => 0
  | .wait t :: rest => t + waitSum rest
  | .tx _ :: rest => waitSum rest

/-- What an observer sees of a micro-op performed without failure (R14). -/
def MicroOp.event : MicroOp → Event
  | .wait t => .wait t
  | .tx b => .tx b

/-- The level last written on the expander's pins, as the trace shows it: the byte of the last
successful write; none while nothing has been written (R38 a, R60, R156). -/
def pinsOf : List Event → Option Byte
  | [] => none
  | e :: rest =>
    match pinsOf rest with
    | some b => some b
    | none =>
      match e with
      | .tx b => some b
      | .wait _ => none
      | .txFail _ => none

end Sys2Proof.Machine
end

