-- ==== Sys2Proof/Machine/Ops.lean ====
section
/-!
DEFINITION. The shared operations on the state: acceptance, the start, completion and abort of a
command, the performance of one micro-op (41_nibble_write.md R154 to R156), the response port, hardware
reset (70_reset_and_hazards.md R310). Errors are taken in one place, `State.raise` (60_exceptions.md
R282); there is no return from an error (R283).
-/

namespace Sys2Proof.Machine

open Sys2Proof

/-- The status codes (R270). -/
def Status.code : Status → Byte
  | .ok => 0x00
  | .transportFailure => 0x01
  | .invalidConfiguration => 0x02
  | .invalidAddress => 0x03
  | .notReady => 0x04
  | .invalidCommand => 0x05

/-- CONSTRUCT's opcode, which ABORT and FINISH ask `CMD_OP` for (R156, R225). -/
def constructOp : Byte := 0x01

/-- `ceil(t * 1000 / T_TICK_NS)` ticks realise a delay of `t` microseconds (R36). -/
def ticksOf (tickNs t : Nat) : Nat := (t * 1000 + (tickNs - 1)) / tickNs

/-- `respond(status, value)` with `BUSY <- 0` (R154, R155). -/
@[simps] def State.respond (s : State) (st : Status) (v : Byte) : State :=
  { s with busy := false, rspValid := true, rspStatus := st.code, rspValue := v }

/-- `raise <Error>` (R15, R154, R282): the command ends with the status and the value 0x00; nothing
else changes. -/
@[simps!] def State.raise (s : State) (st : Status) : State := s.respond st 0x00

/-- The end of a command: `FINISH`, which only CONSTRUCT has (`LIFE <- READY_ST`, R225), and
`respond(OK, value)`. -/
@[simps] def State.complete (s : State) (v : Byte) : State :=
  { s with
    busy := false
    life := if s.cmdOp = constructOp then .ready else s.life
    rspValid := true
    rspStatus := Status.ok.code
    rspValue := v }

/-- Load TIMER at the start of a WAIT (R36). -/
@[simps] def State.startWait (s : State) (t : Nat) : State :=
  { s with timer := ticksOf s.tickNs t }

/-- Present a byte to the transport at the start of a TX (R37, R52). -/
@[simps] def State.present (s : State) (b : Byte) : State :=
  { s with txreg := b, txValid := true }

/-- Begin the micro-op at SEQ, or end the command when SEQ has reached the end of PROG (R22, R155). -/
def State.enter (s : State) : State :=
  match s.prog[s.seq]? with
  | none => s.complete 0x00
  | some (.wait t) => s.startWait t
  | some (.tx b) => s.present b

/-- `PROG <- p ; SEQ <- 0` (R154). -/
@[simps] def State.load (s : State) (p : List MicroOp) : State :=
  { s with busy := true, prog := p, seq := 0 }

/-- `PROG <- EXPAND(cmd) ; SEQ <- 0 ; RUN()`, up to the beginning of the first micro-op (R154). -/
def State.launch (s : State) (p : List MicroOp) : State := (s.load p).enter

/-- A command whose micro-op list is empty completes at once, with its value (R155, R192). -/
def State.answer (s : State) (v : Byte) : State := (s.load []).complete v

/-- The micro-op at SEQ is done: it is recorded and `SEQ <- SEQ + 1` (R14, R22). -/
@[simps] def State.record (s : State) (e : Event) : State :=
  { s with trace := s.trace ++ [e], seq := s.seq + 1 }

/-- `ABORT()` (R156): the failing write is recorded, FAULT is set, a CONSTRUCT leaves no connection, and
the command ends with TRANSPORT_FAILURE. -/
@[simps] def State.abort (s : State) : State :=
  { s with
    trace := s.trace ++ [.txFail s.txreg]
    txValid := false
    fault := true
    life := if s.cmdOp = constructOp then .unconfigured else s.life
    busy := false
    rspValid := true
    rspStatus := Status.transportFailure.code
    rspValue := 0x00 }

/-- One tick of a WAIT (R36): TIMER counts down, and at 0 the micro-op is done. -/
def State.tick (s : State) (t : Nat) : State :=
  if s.timer ≤ 1 then (({ s with timer := 0 } : State).record (.wait t)).enter
  else { s with timer := s.timer - 1 }

/-- One look at the transport while a byte is presented (R52, R53). Without an answer the engine holds
the byte; with no answer ever it stays so for ever. -/
def State.poll (s : State) : State :=
  match s.answers with
  | [] => s
  | .notYet :: rest => { s with answers := rest }
  | .ok :: rest =>
    (({ s with answers := rest, txValid := false } : State).record (.tx s.txreg)).enter
  | .fail :: rest => ({ s with answers := rest } : State).abort

/-- One step of a running command (R155). -/
def State.runMicro (s : State) : State :=
  match s.prog[s.seq]? with
  | none => s.complete 0x00
  | some (.wait t) => s.tick t
  | some (.tx _) => s.poll

/-- One step of an offered response: the host takes it if it is ready (R84, R291). -/
def State.offer (s : State) : State :=
  if s.hostReady then
    { s with
      rspReady := s.rspReady.tail
      rspValid := false
      responses := s.responses ++ [⟨s.rspStatus, s.rspValue⟩] }
  else { s with rspReady := s.rspReady.tail }

/-- Hardware reset (R40, R310): the engine's state as after reset; what the outside has done, will do
and has seen is not the engine's and stays. -/
@[simps] def State.hardReset (s : State) : State :=
  { s with
    life := .unconfigured
    busy := false
    fault := false
    pm := PinMap.zero
    mode := Mode.zero
    bl := false
    connHeld := false
    cmdOp := 0
    cmdA := 0
    cmdB := 0
    cmdN := 0
    pbuf := []
    cmdHeld := false
    prog := []
    seq := 0
    timer := 0
    txreg := 0
    txValid := false
    taking := none
    rspValid := false
    rspStatus := 0
    rspValue := 0 }

/-- `CHECKS` of every command but CONSTRUCT: `LIFE == READY_ST` else `raise NOT_READY` (R274). -/
def State.whenReady (s : State) (k : State → Host.Outcome State Fault Refusal) :
    Host.Outcome State Fault Refusal :=
  if s.life = .ready then k s else .next (s.raise .notReady)

/-- Send one instruction byte: `EXPAND` is `INSTR(v)`. -/
def State.sendInstr (s : State) (v : Byte) : State :=
  s.launch (instrOps s.cfg s.pm s.bl v)

/-- Append an emitted instruction to PROG: the part of an EXPAND that `INSTR(v)` is (R157). -/
@[simps] def State.emitInstr (s : State) (v : Byte) : State :=
  { s with prog := s.prog ++ instrOps s.cfg s.pm s.bl v }

/-- Append an emitted single nibble frame to PROG (R150, R157). -/
@[simps] def State.emitNibble (s : State) (n : Nibble) : State :=
  { s with prog := s.prog ++ nibbleOps s.cfg s.pm s.bl false n }

/-- One setter as an operation on the state: it writes MODE and nothing else (R170). -/
@[simps] def State.applySetter (s : State) (x : Setter) : State :=
  { s with mode := Setter.apply x s.mode }

end Sys2Proof.Machine
end

