-- ==== Sys2Proof/Machine/Display.lean ====
section
/-!
DEFINITION. Addressing, text, home, shifts, backlight and custom characters (44_display_api.md R240 to
R251).
-/

namespace Sys2Proof.Machine

open Sys2Proof

/-- DISPLAY_STRING (R242): the line is checked before anything else happens, then one set-address
instruction and the characters as data. -/
def execDisplayString (line column : Byte) (text : List Byte) (s : State) :
    Host.Outcome State Fault Refusal :=
  s.whenReady fun s =>
    if 3 < line.toNat then .next (s.raise .invalidAddress)
    else
      .next (s.launch
        (instrOps s.cfg s.pm s.bl (setAddressByte s.cfg (addressOf s.cfg line column)) ++
          dataListOps s.cfg s.pm s.bl text))

/-- SET_CURSOR_ADDRESS (R240): `INSTR(0x80 | A)`. -/
def execSetCursorAddress (a : Byte) (s : State) : Host.Outcome State Fault Refusal :=
  s.whenReady fun s => .next (s.sendInstr (setAddressByte s.cfg a))

/-- HOME (R244). -/
def execHome (s : State) : Host.Outcome State Fault Refusal :=
  s.whenReady fun s => .next (s.sendInstr s.cfg.lcdHome)

/-- SHIFT_LEFT (R245). -/
def execShiftLeft (s : State) : Host.Outcome State Fault Refusal :=
  s.whenReady fun s => .next (s.sendInstr s.cfg.shiftLeft)

/-- SHIFT_RIGHT (R246). -/
def execShiftRight (s : State) : Host.Outcome State Fault Refusal :=
  s.whenReady fun s => .next (s.sendInstr s.cfg.shiftRight)

/-- `BL <- b`. -/
@[simps] def State.withBacklight (s : State) (b : Bool) : State := { s with bl := b }

/-- BACKLIGHT_ON (R248): `BL <- 1`, then `INSTR(LCD_NOP)` encoded with the new BL (R138). -/
def execBacklightOn (s : State) : Host.Outcome State Fault Refusal :=
  s.whenReady fun s => .next ((s.withBacklight true).sendInstr s.cfg.nop)

/-- BACKLIGHT_OFF (R249): `BL <- 0`, then `INSTR(LCD_NOP)` encoded with the new BL (R138). -/
def execBacklightOff (s : State) : Host.Outcome State Fault Refusal :=
  s.whenReady fun s => .next ((s.withBacklight false).sendInstr s.cfg.nop)

/-- LOAD_CUSTOM_CHARS (R250): the CGRAM address once, then the rows in slot and row order, unmasked
(R251). -/
def execLoadCustomChars (g : List Byte) (s : State) : Host.Outcome State Fault Refusal :=
  s.whenReady fun s =>
    .next (s.launch
      (instrOps s.cfg s.pm s.bl s.cfg.setCgram ++ dataListOps s.cfg s.pm s.bl g))

end Sys2Proof.Machine
end

