-- ==== Sys2Proof/Machine/Emit.lean ====
section
/-!
DEFINITION. The controller instructions the engine emits (30_encoding.md R100 to R110). The meaning of
one is the part of a command's EXPAND that it is: `INSTR(v)` (41_nibble_write.md R157), or for a nibble
the single frame `NIBBLE(0, n)`, appended to PROG. Bytes and prefixes come from the configuration
record.
-/

namespace Sys2Proof.Machine

open Sys2Proof

/-- LCD_CLEAR (R100). -/
def execLcdClear (s : State) : Host.Outcome State Fault Refusal :=
  .next (s.emitInstr s.cfg.lcdClear)

/-- LCD_HOME (R101); its bit 0 is a don't-care the engine emits as 0. -/
def execLcdHome (x : Bool) (s : State) : Host.Outcome State Fault Refusal :=
  .next (s.emitInstr (s.cfg.lcdHome ||| modeBit x 0))

/-- LCD_ENTRY_MODE_SET (R102). -/
def execLcdEntryModeSet (inc shift : Bool) (s : State) : Host.Outcome State Fault Refusal :=
  .next (s.emitInstr (entryByte s.cfg (modeBit inc 1 ||| modeBit shift 0)))

/-- LCD_DISPLAY_MODE_SET (R103). -/
def execLcdDisplayModeSet (disp cursor blink : Bool) (s : State) :
    Host.Outcome State Fault Refusal :=
  .next (s.emitInstr
    (displayByte s.cfg (modeBit disp 2 ||| modeBit cursor 1 ||| modeBit blink 0)))

/-- LCD_SHIFT_LEFT (R104). -/
def execLcdShiftLeft (s : State) : Host.Outcome State Fault Refusal :=
  .next (s.emitInstr s.cfg.shiftLeft)

/-- LCD_SHIFT_RIGHT (R105). -/
def execLcdShiftRight (s : State) : Host.Outcome State Fault Refusal :=
  .next (s.emitInstr s.cfg.shiftRight)

/-- LCD_FUNCTION_MODE_SET (R106). -/
def execLcdFunctionModeSet (dl n f : Bool) (s : State) : Host.Outcome State Fault Refusal :=
  .next (s.emitInstr (functionByte s.cfg (modeBit dl 4 ||| modeBit n 3 ||| modeBit f 2)))

/-- LCD_NOP (R107). -/
def execLcdNop (s : State) : Host.Outcome State Fault Refusal :=
  .next (s.emitInstr s.cfg.nop)

/-- LCD_SET_DDRAM (R108). -/
def execLcdSetDdram (addr : BitVec 7) (s : State) : Host.Outcome State Fault Refusal :=
  .next (s.emitInstr (setAddressByte s.cfg (addr.setWidth 8)))

/-- LCD_SET_CGRAM, address 0 (R109). -/
def execLcdSetCgram (s : State) : Host.Outcome State Fault Refusal :=
  .next (s.emitInstr s.cfg.setCgram)

/-- NIB_RESET (R110). -/
def execNibReset (s : State) : Host.Outcome State Fault Refusal :=
  .next (s.emitNibble s.cfg.nibReset)

/-- NIB_4BIT (R110). -/
def execNib4Bit (s : State) : Host.Outcome State Fault Refusal :=
  .next (s.emitNibble s.cfg.nib4Bit)

end Sys2Proof.Machine
end

