-- ==== Sys2Proof/Machine/Init.lean ====
section
/-!
DEFINITION. CONSTRUCT, the power-on sequence (43_init_sequencer.md R220 to R228).
-/

namespace Sys2Proof.Machine

open Sys2Proof

/-- `UPDATES` of CONSTRUCT (R221): PM, BL, MODE, FAULT and LIFE are written; from here on PM, MODE and
BL hold a value. -/
@[simps] def State.configure (s : State) (pm : PinMap) (ss : List Setter) : State :=
  { s with
    pm := pm
    bl := s.cfg.blInit
    mode := applySetters ss Mode.default
    fault := false
    life := .initialising
    connHeld := true }

/-- CONSTRUCT (R220): legal in every lifecycle state (R226); an illegal pin map changes nothing and
answers INVALID_CONFIGURATION (R221). -/
def execConstruct (p : PinBytes) (ss : List Setter) (s : State) :
    Host.Outcome State Fault Refusal :=
  match validatePinMap p with
  | none => .next (s.raise .invalidConfiguration)
  | some pm =>
    let t := s.configure pm ss
    .next (t.launch (initOps t.cfg t.pm t.bl t.mode))

end Sys2Proof.Machine
end

