-- ==== Sys2Proof/Machine/Modes.lean ====
section
/-!
DEFINITION. SET_MODE, CLEAR and the seven queries (42_mode_state.md R190 to R199).
-/

namespace Sys2Proof.Machine

open Sys2Proof

/-- `MODE <- m` (SET_MODE's UPDATES). -/
@[simps] def State.withMode (s : State) (m : Mode) : State := { s with mode := m }

/-- SET_MODE (R190): `MODE <- APPLY(s, MODE)`, then `COMMIT()`. -/
def execSetMode (ss : List Setter) (s : State) : Host.Outcome State Fault Refusal :=
  s.whenReady fun s =>
    let m := applySetters ss s.mode
    .next ((s.withMode m).launch (commitOps s.cfg s.pm s.bl m))

/-- CLEAR (R191): the clear instruction, then the commit of the modes as they are; no return-home. -/
def execClear (s : State) : Host.Outcome State Fault Refusal :=
  s.whenReady fun s =>
    .next (s.launch
      (instrOps s.cfg s.pm s.bl s.cfg.lcdClear ++ commitOps s.cfg s.pm s.bl s.mode))

/-- Q_ENTRY_INCREMENT (R193). -/
def execQEntryIncrement (s : State) : Host.Outcome State Fault Refusal :=
  s.whenReady fun s => .next (s.answer (boolValue (s.mode.entry.getLsbD 1)))

/-- Q_SHIFT_ON (R194). -/
def execQShiftOn (s : State) : Host.Outcome State Fault Refusal :=
  s.whenReady fun s => .next (s.answer (boolValue (s.mode.entry.getLsbD 0)))

/-- Q_DISPLAY_ON (R195). -/
def execQDisplayOn (s : State) : Host.Outcome State Fault Refusal :=
  s.whenReady fun s => .next (s.answer (boolValue (s.mode.display.getLsbD 2)))

/-- Q_CURSOR_ON (R196). -/
def execQCursorOn (s : State) : Host.Outcome State Fault Refusal :=
  s.whenReady fun s => .next (s.answer (boolValue (s.mode.display.getLsbD 1)))

/-- Q_BLINK_ON (R197). -/
def execQBlinkOn (s : State) : Host.Outcome State Fault Refusal :=
  s.whenReady fun s => .next (s.answer (boolValue (s.mode.display.getLsbD 0)))

/-- Q_BUS_WIDTH (R198). -/
def execQBusWidth (s : State) : Host.Outcome State Fault Refusal :=
  s.whenReady fun s => .next (s.answer (busWidthValue s.mode))

/-- Q_LINE_COUNT (R199). -/
def execQLineCount (s : State) : Host.Outcome State Fault Refusal :=
  s.whenReady fun s => .next (s.answer (lineCountValue s.mode))

end Sys2Proof.Machine
end

