-- ==== Sys2Proof/Machine/Setters.lean ====
section
/-!
DEFINITION. The sixteen mode setters (42_mode_state.md R170 to R186): each writes one bit of MODE and
nothing else.
-/

namespace Sys2Proof.Machine

open Sys2Proof

/-- EntryIncrement (R171). -/
def execEntryIncrement (s : State) : Host.Outcome State Fault Refusal :=
  .next (s.applySetter .entryIncrement)

/-- EntryDecrement (R172). -/
def execEntryDecrement (s : State) : Host.Outcome State Fault Refusal :=
  .next (s.applySetter .entryDecrement)

/-- EntryShiftOn (R173). -/
def execEntryShiftOn (s : State) : Host.Outcome State Fault Refusal :=
  .next (s.applySetter .entryShiftOn)

/-- EntryShiftOff (R174). -/
def execEntryShiftOff (s : State) : Host.Outcome State Fault Refusal :=
  .next (s.applySetter .entryShiftOff)

/-- DisplayOn (R175). -/
def execDisplayOn (s : State) : Host.Outcome State Fault Refusal :=
  .next (s.applySetter .displayOn)

/-- DisplayOff (R176). -/
def execDisplayOff (s : State) : Host.Outcome State Fault Refusal :=
  .next (s.applySetter .displayOff)

/-- CursorOn (R177). -/
def execCursorOn (s : State) : Host.Outcome State Fault Refusal :=
  .next (s.applySetter .cursorOn)

/-- CursorOff (R178). -/
def execCursorOff (s : State) : Host.Outcome State Fault Refusal :=
  .next (s.applySetter .cursorOff)

/-- BlinkOn (R179). -/
def execBlinkOn (s : State) : Host.Outcome State Fault Refusal :=
  .next (s.applySetter .blinkOn)

/-- BlinkOff (R180). -/
def execBlinkOff (s : State) : Host.Outcome State Fault Refusal :=
  .next (s.applySetter .blinkOff)

/-- FourBitMode (R181). -/
def execFourBitMode (s : State) : Host.Outcome State Fault Refusal :=
  .next (s.applySetter .fourBitMode)

/-- EightBitMode (R182). -/
def execEightBitMode (s : State) : Host.Outcome State Fault Refusal :=
  .next (s.applySetter .eightBitMode)

/-- OneLine (R183). -/
def execOneLine (s : State) : Host.Outcome State Fault Refusal :=
  .next (s.applySetter .oneLine)

/-- TwoLine (R184). -/
def execTwoLine (s : State) : Host.Outcome State Fault Refusal :=
  .next (s.applySetter .twoLine)

/-- Dots5x8 (R185). -/
def execDots5x8 (s : State) : Host.Outcome State Fault Refusal :=
  .next (s.applySetter .dots5x8)

/-- Dots5x10 (R186). -/
def execDots5x10 (s : State) : Host.Outcome State Fault Refusal :=
  .next (s.applySetter .dots5x10)

end Sys2Proof.Machine
end

