-- ==== Sys2Proof/Machine/Write.lean ====
section
/-!
DEFINITION. The two raw write commands (41_nibble_write.md R158, R159).
-/

namespace Sys2Proof.Machine

open Sys2Proof

/-- WRITE_CHAR (R158): `EXPAND` is `DATA(A)`. -/
def execWriteChar (b : Byte) (s : State) : Host.Outcome State Fault Refusal :=
  s.whenReady fun s => .next (s.launch (dataOps s.cfg s.pm s.bl b))

/-- WRITE_INSTRUCTION (R159): `EXPAND` is `INSTR(A)`; the byte is not interpreted but for its settle
class, and MODE is not written. -/
def execWriteInstruction (b : Byte) (s : State) : Host.Outcome State Fault Refusal :=
  s.whenReady fun s => .next (s.launch (instrOps s.cfg s.pm s.bl b))

end Sys2Proof.Machine
end

