-- ==== Sys2Proof/Syntax.lean ====
section
/-!
DEFINITION. The instructions: one constructor for each of the 48 rows of opcode_table.json, in the
table's order: 20 host commands (30_encoding.md R90), 16 mode setters (R92), 10 emitted controller
instructions and 2 emitted nibbles (R100 to R110).
-/

namespace Sys2Proof

/-- One constructor per row of the opcode table. Fields that a row ignores are not arguments (R86). -/
inductive Instr where
  -- host commands (R90)
  | construct (p : PinBytes) (ss : List Setter)
  | setMode (ss : List Setter)
  | displayString (line column : Byte) (text : List Byte)
  | writeChar (b : Byte)
  | writeInstruction (b : Byte)
  | setCursorAddress (a : Byte)
  | clear
  | home
  | shiftLeft
  | shiftRight
  | backlightOn
  | backlightOff
  | loadCustomChars (g : List Byte)
  | qEntryIncrement
  | qShiftOn
  | qDisplayOn
  | qCursorOn
  | qBlinkOn
  | qBusWidth
  | qLineCount
  -- mode setters (R92)
  | entryIncrement
  | entryDecrement
  | entryShiftOn
  | entryShiftOff
  | displayOn
  | displayOff
  | cursorOn
  | cursorOff
  | blinkOn
  | blinkOff
  | fourBitMode
  | eightBitMode
  | oneLine
  | twoLine
  | dots5x8
  | dots5x10
  -- emitted controller instructions (R100 to R109) and nibbles (R110)
  | lcdClear
  | lcdHome (x : Bool)
  | lcdEntryModeSet (inc shift : Bool)
  | lcdDisplayModeSet (disp cursor blink : Bool)
  | lcdShiftLeft
  | lcdShiftRight
  | lcdFunctionModeSet (dl n f : Bool)
  | lcdNop
  | lcdSetDdram (addr : BitVec 7)
  | lcdSetCgram
  | nibReset
  | nib4Bit
deriving DecidableEq, Repr

end Sys2Proof
end

