-- ==== Sys2Proof/Machine/Dispatch.lean ====
section
/-!
DEFINITION. One arm per instruction, each a direct call of its meaning.
-/

namespace Sys2Proof.Machine

open Sys2Proof

def exec (i : Instr) (s : State) : Host.Outcome State Fault Refusal :=
  match i with
  | .construct p ss => Sys2Proof.Machine.execConstruct p ss s
  | .setMode ss => Sys2Proof.Machine.execSetMode ss s
  | .displayString line column text => Sys2Proof.Machine.execDisplayString line column text s
  | .writeChar b => Sys2Proof.Machine.execWriteChar b s
  | .writeInstruction b => Sys2Proof.Machine.execWriteInstruction b s
  | .setCursorAddress a => Sys2Proof.Machine.execSetCursorAddress a s
  | .clear => Sys2Proof.Machine.execClear s
  | .home => Sys2Proof.Machine.execHome s
  | .shiftLeft => Sys2Proof.Machine.execShiftLeft s
  | .shiftRight => Sys2Proof.Machine.execShiftRight s
  | .backlightOn => Sys2Proof.Machine.execBacklightOn s
  | .backlightOff => Sys2Proof.Machine.execBacklightOff s
  | .loadCustomChars g => Sys2Proof.Machine.execLoadCustomChars g s
  | .qEntryIncrement => Sys2Proof.Machine.execQEntryIncrement s
  | .qShiftOn => Sys2Proof.Machine.execQShiftOn s
  | .qDisplayOn => Sys2Proof.Machine.execQDisplayOn s
  | .qCursorOn => Sys2Proof.Machine.execQCursorOn s
  | .qBlinkOn => Sys2Proof.Machine.execQBlinkOn s
  | .qBusWidth => Sys2Proof.Machine.execQBusWidth s
  | .qLineCount => Sys2Proof.Machine.execQLineCount s
  | .entryIncrement => Sys2Proof.Machine.execEntryIncrement s
  | .entryDecrement => Sys2Proof.Machine.execEntryDecrement s
  | .entryShiftOn => Sys2Proof.Machine.execEntryShiftOn s
  | .entryShiftOff => Sys2Proof.Machine.execEntryShiftOff s
  | .displayOn => Sys2Proof.Machine.execDisplayOn s
  | .displayOff => Sys2Proof.Machine.execDisplayOff s
  | .cursorOn => Sys2Proof.Machine.execCursorOn s
  | .cursorOff => Sys2Proof.Machine.execCursorOff s
  | .blinkOn => Sys2Proof.Machine.execBlinkOn s
  | .blinkOff => Sys2Proof.Machine.execBlinkOff s
  | .fourBitMode => Sys2Proof.Machine.execFourBitMode s
  | .eightBitMode => Sys2Proof.Machine.execEightBitMode s
  | .oneLine => Sys2Proof.Machine.execOneLine s
  | .twoLine => Sys2Proof.Machine.execTwoLine s
  | .dots5x8 => Sys2Proof.Machine.execDots5x8 s
  | .dots5x10 => Sys2Proof.Machine.execDots5x10 s
  | .lcdClear => Sys2Proof.Machine.execLcdClear s
  | .lcdHome x => Sys2Proof.Machine.execLcdHome x s
  | .lcdEntryModeSet inc shift => Sys2Proof.Machine.execLcdEntryModeSet inc shift s
  | .lcdDisplayModeSet disp cursor blink => Sys2Proof.Machine.execLcdDisplayModeSet disp cursor blink s
  | .lcdShiftLeft => Sys2Proof.Machine.execLcdShiftLeft s
  | .lcdShiftRight => Sys2Proof.Machine.execLcdShiftRight s
  | .lcdFunctionModeSet dl n f => Sys2Proof.Machine.execLcdFunctionModeSet dl n f s
  | .lcdNop => Sys2Proof.Machine.execLcdNop s
  | .lcdSetDdram addr => Sys2Proof.Machine.execLcdSetDdram addr s
  | .lcdSetCgram => Sys2Proof.Machine.execLcdSetCgram s
  | .nibReset => Sys2Proof.Machine.execNibReset s
  | .nib4Bit => Sys2Proof.Machine.execNib4Bit s

end Sys2Proof.Machine
end

