-- ==== Sys2Proof/WellFormed.lean ====
section
/-!
DEFINITION. What an instruction must satisfy to have an encoding: the payload lengths of the "legal N"
column of 30_encoding.md R90. Every other operand is confined by its type.
-/

namespace Sys2Proof

/-- The payload of the instruction has a legal length (R90): CONSTRUCT 9 pin-map bytes and at most 246
setters, SET_MODE and DISPLAY_STRING at most 255 bytes, LOAD_CUSTOM_CHARS exactly 64. -/
def Instr.wellFormed : Instr → Bool
  | .construct _ ss => decide (9 + ss.length ≤ 255)
  | .setMode ss => decide (ss.length ≤ 255)
  | .displayString _ _ text => decide (text.length ≤ 255)
  | .loadCustomChars g => decide (g.length = 64)
  | .writeChar _ | .writeInstruction _ | .setCursorAddress _ => true
  | .clear | .home | .shiftLeft | .shiftRight | .backlightOn | .backlightOff => true
  | .qEntryIncrement | .qShiftOn | .qDisplayOn | .qCursorOn | .qBlinkOn | .qBusWidth
  | .qLineCount => true
  | .entryIncrement | .entryDecrement | .entryShiftOn | .entryShiftOff => true
  | .displayOn | .displayOff | .cursorOn | .cursorOff | .blinkOn | .blinkOff => true
  | .fourBitMode | .eightBitMode | .oneLine | .twoLine | .dots5x8 | .dots5x10 => true
  | .lcdClear | .lcdHome _ | .lcdEntryModeSet _ _ | .lcdDisplayModeSet _ _ _ => true
  | .lcdShiftLeft | .lcdShiftRight | .lcdFunctionModeSet _ _ _ | .lcdNop => true
  | .lcdSetDdram _ | .lcdSetCgram | .nibReset | .nib4Bit => true

/-- The instruction has an encoding. -/
abbrev Instr.WF (i : Instr) : Prop := i.wellFormed = true

end Sys2Proof
end

