-- ==== Sys2Proof/Decode.lean ====
section
/-!
DEFINITION. The decoder of the four formats (30_encoding.md R85 to R92, R95, R100 to R110), total and
rejecting by name, the encoder written from the same tables, and the opcode table as data.
-/

namespace Sys2Proof

/-! ### The command word (R85) -/

/-- `OP`, bits 31:24. -/
def opOf (w : Word) : Byte := w.extractLsb' 24 8

/-- `A`, bits 23:16. -/
def aOf (w : Word) : Byte := w.extractLsb' 16 8

/-- `B`, bits 15:8. -/
def bOf (w : Word) : Byte := w.extractLsb' 8 8

/-- `N`, bits 7:0: the number of payload bytes that follow (R87). -/
def nOf (w : Word) : Byte := w.extractLsb' 0 8

/-- The command word `{OP, A, B, N}`. -/
def commandWord (op a b n : Byte) : Word :=
  (op.setWidth 32 <<< 24) ||| (a.setWidth 32 <<< 16) ||| (b.setWidth 32 <<< 8) ||| n.setWidth 32

/-! ### Setter codes (R92) -/

/-- The code of a setter. -/
def Setter.code : Setter → Byte
  | .entryIncrement => 0x00
  | .entryDecrement => 0x01
  | .entryShiftOn => 0x02
  | .entryShiftOff => 0x03
  | .displayOn => 0x04
  | .displayOff => 0x05
  | .cursorOn => 0x06
  | .cursorOff => 0x07
  | .blinkOn => 0x08
  | .blinkOff => 0x09
  | .fourBitMode => 0x0A
  | .eightBitMode => 0x0B
  | .oneLine => 0x0C
  | .twoLine => 0x0D
  | .dots5x8 => 0x0E
  | .dots5x10 => 0x0F

/-- The setter a payload byte stands for; 0x10 to 0xFF are not setters. -/
def Setter.ofCode (b : Byte) : Option Setter :=
  match b.toNat with
  | 0x00 => some .entryIncrement
  | 0x01 => some .entryDecrement
  | 0x02 => some .entryShiftOn
  | 0x03 => some .entryShiftOff
  | 0x04 => some .displayOn
  | 0x05 => some .displayOff
  | 0x06 => some .cursorOn
  | 0x07 => some .cursorOff
  | 0x08 => some .blinkOn
  | 0x09 => some .blinkOff
  | 0x0A => some .fourBitMode
  | 0x0B => some .eightBitMode
  | 0x0C => some .oneLine
  | 0x0D => some .twoLine
  | 0x0E => some .dots5x8
  | 0x0F => some .dots5x10
  | _ => none

/-- The setters a list of payload bytes stands for, in their order; the first byte that is none is the
reason of the rejection (R91). -/
def settersOf : List Byte → Except Reject (List Setter)
  | [] => .ok []
  | b :: rest =>
    match Setter.ofCode b with
    | none => .error (.notASetter b)
    | some x =>
      match settersOf rest with
      | .error r => .error r
      | .ok xs => .ok (x :: xs)

/-- A setter as an instruction of its own (the SETTER rows of the table). -/
def Setter.instr : Setter → Instr
  | .entryIncrement => .entryIncrement
  | .entryDecrement => .entryDecrement
  | .entryShiftOn => .entryShiftOn
  | .entryShiftOff => .entryShiftOff
  | .displayOn => .displayOn
  | .displayOff => .displayOff
  | .cursorOn => .cursorOn
  | .cursorOff => .cursorOff
  | .blinkOn => .blinkOn
  | .blinkOff => .blinkOff
  | .fourBitMode => .fourBitMode
  | .eightBitMode => .eightBitMode
  | .oneLine => .oneLine
  | .twoLine => .twoLine
  | .dots5x8 => .dots5x8
  | .dots5x10 => .dots5x10

/-! ### Commands (R90, R91) -/

/-- A command without payload: N must be 0. -/
def withoutPayload (w : Word) (i : Instr) : Except Reject Instr :=
  if nOf w = 0 then .ok i else .error (.illegalLength (opOf w) (nOf w))

/-- CONSTRUCT: nine pin-map bytes, unchecked, then setters (R89, R91). -/
def decodeConstruct (w : Word) : List Byte → Except Reject Instr
  | rs :: rw :: en :: d4 :: d5 :: d6 :: d7 :: bl :: pol :: rest =>
    match settersOf rest with
    | .ok ss => .ok (.construct ⟨rs, rw, en, d4, d5, d6, d7, bl, pol⟩ ss)
    | .error r => .error r
  | _ => .error (.illegalLength (opOf w) (nOf w))

/-- SET_MODE: every payload byte a setter (R91). -/
def decodeSetMode (p : List Byte) : Except Reject Instr :=
  match settersOf p with
  | .ok ss => .ok (.setMode ss)
  | .error r => .error r

/-- LOAD_CUSTOM_CHARS: N must be 64 (R90). -/
def decodeLoad (w : Word) (p : List Byte) : Except Reject Instr :=
  if nOf w = 64 then .ok (.loadCustomChars p) else .error (.illegalLength (opOf w) (nOf w))

/-- `decode(word, payload)` of R91. -/
def decodeCommand (w : Word) (p : List Byte) : Except Reject Instr :=
  if p.length ≠ (nOf w).toNat then .error .payloadMismatch
  else
    match (opOf w).toNat with
    | 0x01 => decodeConstruct w p
    | 0x02 => decodeSetMode p
    | 0x03 => .ok (.displayString (aOf w) (bOf w) p)
    | 0x04 => withoutPayload w (.writeChar (aOf w))
    | 0x05 => withoutPayload w (.writeInstruction (aOf w))
    | 0x06 => withoutPayload w (.setCursorAddress (aOf w))
    | 0x07 => withoutPayload w .clear
    | 0x08 => withoutPayload w .home
    | 0x09 => withoutPayload w .shiftLeft
    | 0x0A => withoutPayload w .shiftRight
    | 0x0B => withoutPayload w .backlightOn
    | 0x0C => withoutPayload w .backlightOff
    | 0x0D => decodeLoad w p
    | 0x10 => withoutPayload w .qEntryIncrement
    | 0x11 => withoutPayload w .qShiftOn
    | 0x12 => withoutPayload w .qDisplayOn
    | 0x13 => withoutPayload w .qCursorOn
    | 0x14 => withoutPayload w .qBlinkOn
    | 0x15 => withoutPayload w .qBusWidth
    | 0x16 => withoutPayload w .qLineCount
    | _ => .error (.unknownOpcode (opOf w))

/-! ### Internal operations (R92, R100 to R110) -/

/-- The emitted controller instruction a byte is: the CTRL_OUT rows with their masks. -/
def decodeController (b : Byte) : Except Reject Instr :=
  if b = 0x01 then .ok .lcdClear
  else if b &&& 0xFE = 0x02 then .ok (.lcdHome (b.getLsbD 0))
  else if b &&& 0xFC = 0x04 then .ok (.lcdEntryModeSet (b.getLsbD 1) (b.getLsbD 0))
  else if b &&& 0xF8 = 0x08 then
    .ok (.lcdDisplayModeSet (b.getLsbD 2) (b.getLsbD 1) (b.getLsbD 0))
  else if b = 0x18 then .ok .lcdShiftLeft
  else if b = 0x1C then .ok .lcdShiftRight
  else if b &&& 0xE3 = 0x20 then
    .ok (.lcdFunctionModeSet (b.getLsbD 4) (b.getLsbD 3) (b.getLsbD 2))
  else if b = 0x00 then .ok .lcdNop
  else if b &&& 0x80 = 0x80 then .ok (.lcdSetDdram (b.extractLsb' 0 7))
  else if b = 0x40 then .ok .lcdSetCgram
  else .error (.notEmittedByte b)

/-- The emitted nibble: the CTRL_OUT_NIBBLE rows (R110). -/
def decodeNibble (n : Nibble) : Except Reject Instr :=
  if n = 0x3 then .ok .nibReset
  else if n = 0x2 then .ok .nib4Bit
  else .error (.notEmittedNibble n)

/-- The internal operation an encoding stands for. -/
def decodeInternal : Internal → Except Reject Instr
  | .setter b =>
    match Setter.ofCode b with
    | some x => .ok x.instr
    | none => .error (.notASetter b)
  | .controller b => decodeController b
  | .nibble n => decodeNibble n

/-- The decoder: total, and a rejection says why. -/
def decode : Code → Except Reject Instr
  | .command w p => decodeCommand w p
  | .internal x => decodeInternal x

/-! ### The encoder -/

/-- The nine pin-map bytes in their order of transfer (R89). -/
def PinBytes.toList (p : PinBytes) : List Byte :=
  [p.rs, p.rw, p.en, p.d4, p.d5, p.d6, p.d7, p.bl, p.pol]

/-- A command's code; unused fields are 0 (R86), N is the payload's length (R87). -/
def commandCode (op a b : Byte) (p : List Byte) : Code :=
  .command (commandWord op a b (BitVec.ofNat 8 p.length)) p

/-- A setter's code as an instruction of its own. -/
def setterCode (x : Setter) : Code := .internal (.setter x.code)

/-- A controller instruction byte's code. -/
def controllerCode (b : Byte) : Code := .internal (.controller b)

/-- One bit of a mode instruction, placed at bit `k`. -/
def flagAt (f : Bool) (k : Nat) : Byte := if f then 1 <<< k else 0

/-- The code of an instruction, from the tables of R89, R90, R92 and R100 to R110. -/
def encode : Instr → Code
  | .construct p ss => commandCode 0x01 0 0 (p.toList ++ ss.map Setter.code)
  | .setMode ss => commandCode 0x02 0 0 (ss.map Setter.code)
  | .displayString line column text => commandCode 0x03 line column text
  | .writeChar b => commandCode 0x04 b 0 []
  | .writeInstruction b => commandCode 0x05 b 0 []
  | .setCursorAddress a => commandCode 0x06 a 0 []
  | .clear => commandCode 0x07 0 0 []
  | .home => commandCode 0x08 0 0 []
  | .shiftLeft => commandCode 0x09 0 0 []
  | .shiftRight => commandCode 0x0A 0 0 []
  | .backlightOn => commandCode 0x0B 0 0 []
  | .backlightOff => commandCode 0x0C 0 0 []
  | .loadCustomChars g => commandCode 0x0D 0 0 g
  | .qEntryIncrement => commandCode 0x10 0 0 []
  | .qShiftOn => commandCode 0x11 0 0 []
  | .qDisplayOn => commandCode 0x12 0 0 []
  | .qCursorOn => commandCode 0x13 0 0 []
  | .qBlinkOn => commandCode 0x14 0 0 []
  | .qBusWidth => commandCode 0x15 0 0 []
  | .qLineCount => commandCode 0x16 0 0 []
  | .entryIncrement => setterCode .entryIncrement
  | .entryDecrement => setterCode .entryDecrement
  | .entryShiftOn => setterCode .entryShiftOn
  | .entryShiftOff => setterCode .entryShiftOff
  | .displayOn => setterCode .displayOn
  | .displayOff => setterCode .displayOff
  | .cursorOn => setterCode .cursorOn
  | .cursorOff => setterCode .cursorOff
  | .blinkOn => setterCode .blinkOn
  | .blinkOff => setterCode .blinkOff
  | .fourBitMode => setterCode .fourBitMode
  | .eightBitMode => setterCode .eightBitMode
  | .oneLine => setterCode .oneLine
  | .twoLine => setterCode .twoLine
  | .dots5x8 => setterCode .dots5x8
  | .dots5x10 => setterCode .dots5x10
  | .lcdClear => controllerCode 0x01
  | .lcdHome x => controllerCode (0x02 ||| flagAt x 0)
  | .lcdEntryModeSet inc shift => controllerCode (0x04 ||| flagAt inc 1 ||| flagAt shift 0)
  | .lcdDisplayModeSet d c b => controllerCode (0x08 ||| flagAt d 2 ||| flagAt c 1 ||| flagAt b 0)
  | .lcdShiftLeft => controllerCode 0x18
  | .lcdShiftRight => controllerCode 0x1C
  | .lcdFunctionModeSet dl n f => controllerCode (0x20 ||| flagAt dl 4 ||| flagAt n 3 ||| flagAt f 2)
  | .lcdNop => controllerCode 0x00
  | .lcdSetDdram addr => controllerCode (0x80 ||| addr.setWidth 8)
  | .lcdSetCgram => controllerCode 0x40
  | .nibReset => .internal (.nibble 0x3)
  | .nib4Bit => .internal (.nibble 0x2)

/-! ### The opcode table -/

/-- The `format` column of opcode_table.json. -/
inductive Format where
  | w | setter | ctrlOut | ctrlOutNibble
deriving DecidableEq, Repr

/-- A row of opcode_table.json: an encoding belongs to it when its bits under `mask` are `value`. -/
structure TableRow where
  mnemonic : String
  format : Format
  mask : Nat
  value : Nat
deriving DecidableEq, Repr

/-- The format W rows (R90). -/
def commandRows : List TableRow :=
  [⟨"CONSTRUCT", .w, 0xFF000000, 0x01000000⟩, ⟨"SET_MODE", .w, 0xFF000000, 0x02000000⟩,
   ⟨"DISPLAY_STRING", .w, 0xFF000000, 0x03000000⟩, ⟨"WRITE_CHAR", .w, 0xFF0000FF, 0x04000000⟩,
   ⟨"WRITE_INSTRUCTION", .w, 0xFF0000FF, 0x05000000⟩,
   ⟨"SET_CURSOR_ADDRESS", .w, 0xFF0000FF, 0x06000000⟩, ⟨"CLEAR", .w, 0xFF0000FF, 0x07000000⟩,
   ⟨"HOME", .w, 0xFF0000FF, 0x08000000⟩, ⟨"SHIFT_LEFT", .w, 0xFF0000FF, 0x09000000⟩,
   ⟨"SHIFT_RIGHT", .w, 0xFF0000FF, 0x0A000000⟩] ++
  [⟨"BACKLIGHT_ON", .w, 0xFF0000FF, 0x0B000000⟩, ⟨"BACKLIGHT_OFF", .w, 0xFF0000FF, 0x0C000000⟩,
   ⟨"LOAD_CUSTOM_CHARS", .w, 0xFF0000FF, 0x0D000040⟩,
   ⟨"Q_ENTRY_INCREMENT", .w, 0xFF0000FF, 0x10000000⟩, ⟨"Q_SHIFT_ON", .w, 0xFF0000FF, 0x11000000⟩,
   ⟨"Q_DISPLAY_ON", .w, 0xFF0000FF, 0x12000000⟩, ⟨"Q_CURSOR_ON", .w, 0xFF0000FF, 0x13000000⟩,
   ⟨"Q_BLINK_ON", .w, 0xFF0000FF, 0x14000000⟩, ⟨"Q_BUS_WIDTH", .w, 0xFF0000FF, 0x15000000⟩,
   ⟨"Q_LINE_COUNT", .w, 0xFF0000FF, 0x16000000⟩]

/-- The SETTER rows (R92). -/
def setterRows : List TableRow :=
  [⟨"EntryIncrement", .setter, 0xFF, 0x00⟩, ⟨"EntryDecrement", .setter, 0xFF, 0x01⟩,
   ⟨"EntryShiftOn", .setter, 0xFF, 0x02⟩, ⟨"EntryShiftOff", .setter, 0xFF, 0x03⟩,
   ⟨"DisplayOn", .setter, 0xFF, 0x04⟩, ⟨"DisplayOff", .setter, 0xFF, 0x05⟩,
   ⟨"CursorOn", .setter, 0xFF, 0x06⟩, ⟨"CursorOff", .setter, 0xFF, 0x07⟩] ++
  [⟨"BlinkOn", .setter, 0xFF, 0x08⟩, ⟨"BlinkOff", .setter, 0xFF, 0x09⟩,
   ⟨"FourBitMode", .setter, 0xFF, 0x0A⟩, ⟨"EightBitMode", .setter, 0xFF, 0x0B⟩,
   ⟨"OneLine", .setter, 0xFF, 0x0C⟩, ⟨"TwoLine", .setter, 0xFF, 0x0D⟩,
   ⟨"Dots5x8", .setter, 0xFF, 0x0E⟩, ⟨"Dots5x10", .setter, 0xFF, 0x0F⟩]

/-- The CTRL_OUT rows (R100 to R109). -/
def controllerRows : List TableRow :=
  [⟨"LCD_CLEAR", .ctrlOut, 0xFF, 0x01⟩, ⟨"LCD_HOME", .ctrlOut, 0xFE, 0x02⟩,
   ⟨"LCD_ENTRY_MODE_SET", .ctrlOut, 0xFC, 0x04⟩, ⟨"LCD_DISPLAY_MODE_SET", .ctrlOut, 0xF8, 0x08⟩,
   ⟨"LCD_SHIFT_LEFT", .ctrlOut, 0xFF, 0x18⟩, ⟨"LCD_SHIFT_RIGHT", .ctrlOut, 0xFF, 0x1C⟩,
   ⟨"LCD_FUNCTION_MODE_SET", .ctrlOut, 0xE3, 0x20⟩, ⟨"LCD_NOP", .ctrlOut, 0xFF, 0x00⟩,
   ⟨"LCD_SET_DDRAM", .ctrlOut, 0x80, 0x80⟩, ⟨"LCD_SET_CGRAM", .ctrlOut, 0xFF, 0x40⟩]

/-- The CTRL_OUT_NIBBLE rows (R110). -/
def nibbleRows : List TableRow :=
  [⟨"NIB_RESET", .ctrlOutNibble, 0xF, 0x3⟩, ⟨"NIB_4BIT", .ctrlOutNibble, 0xF, 0x2⟩]

/-- The bits of a code as the table numbers them, and its format. -/
def Code.tableBits : Code → Format × Nat
  | .command w _ => (.w, w.toNat)
  | .internal (.setter b) => (.setter, b.toNat)
  | .internal (.controller b) => (.ctrlOut, b.toNat)
  | .internal (.nibble n) => (.ctrlOutNibble, n.toNat)

/-- A code belongs to a table row. -/
def TableRow.holds (r : TableRow) (c : Code) : Bool :=
  decide (r.format = c.tableBits.1) && decide (c.tableBits.2 &&& r.mask = r.value)

/-- The table's mnemonic of an instruction. -/
def Instr.mnemonic : Instr → String
  | .construct _ _ => "CONSTRUCT"
  | .setMode _ => "SET_MODE"
  | .displayString _ _ _ => "DISPLAY_STRING"
  | .writeChar _ => "WRITE_CHAR"
  | .writeInstruction _ => "WRITE_INSTRUCTION"
  | .setCursorAddress _ => "SET_CURSOR_ADDRESS"
  | .clear => "CLEAR"
  | .home => "HOME"
  | .shiftLeft => "SHIFT_LEFT"
  | .shiftRight => "SHIFT_RIGHT"
  | .backlightOn => "BACKLIGHT_ON"
  | .backlightOff => "BACKLIGHT_OFF"
  | .loadCustomChars _ => "LOAD_CUSTOM_CHARS"
  | .qEntryIncrement => "Q_ENTRY_INCREMENT"
  | .qShiftOn => "Q_SHIFT_ON"
  | .qDisplayOn => "Q_DISPLAY_ON"
  | .qCursorOn => "Q_CURSOR_ON"
  | .qBlinkOn => "Q_BLINK_ON"
  | .qBusWidth => "Q_BUS_WIDTH"
  | .qLineCount => "Q_LINE_COUNT"
  | .entryIncrement => "EntryIncrement"
  | .entryDecrement => "EntryDecrement"
  | .entryShiftOn => "EntryShiftOn"
  | .entryShiftOff => "EntryShiftOff"
  | .displayOn => "DisplayOn"
  | .displayOff => "DisplayOff"
  | .cursorOn => "CursorOn"
  | .cursorOff => "CursorOff"
  | .blinkOn => "BlinkOn"
  | .blinkOff => "BlinkOff"
  | .fourBitMode => "FourBitMode"
  | .eightBitMode => "EightBitMode"
  | .oneLine => "OneLine"
  | .twoLine => "TwoLine"
  | .dots5x8 => "Dots5x8"
  | .dots5x10 => "Dots5x10"
  | .lcdClear => "LCD_CLEAR"
  | .lcdHome _ => "LCD_HOME"
  | .lcdEntryModeSet _ _ => "LCD_ENTRY_MODE_SET"
  | .lcdDisplayModeSet _ _ _ => "LCD_DISPLAY_MODE_SET"
  | .lcdShiftLeft => "LCD_SHIFT_LEFT"
  | .lcdShiftRight => "LCD_SHIFT_RIGHT"
  | .lcdFunctionModeSet _ _ _ => "LCD_FUNCTION_MODE_SET"
  | .lcdNop => "LCD_NOP"
  | .lcdSetDdram _ => "LCD_SET_DDRAM"
  | .lcdSetCgram => "LCD_SET_CGRAM"
  | .nibReset => "NIB_RESET"
  | .nib4Bit => "NIB_4BIT"

/-- The whole table. -/
def opcodeTable : List TableRow := commandRows ++ setterRows ++ controllerRows ++ nibbleRows

/-! ### The host's question about one table word -/

/-- The payload bytes of a command given as one number: byte `k` is bits 39+8k:32+8k. -/
def payloadBits (n w : Nat) : List Byte :=
  (List.range n).map fun k => BitVec.ofNat 8 (w >>> (32 + 8 * k))

/-- The encoded instruction whose bits are `w`, numbered as the table numbers them. More than 8 bits is
a command. 4 bits is a nibble. 8 bits is a setter where the value is a setter code, else a controller
byte: the two 8-bit formats overlap below 0x10 (log 11). -/
def codeOfTable (nbits w : Nat) : Code :=
  if 8 < nbits then
    let word := BitVec.ofNat 32 w
    .command word (payloadBits (nOf word).toNat w)
  else if nbits ≤ 4 then .internal (.nibble (BitVec.ofNat 4 w))
  else if (Setter.ofCode (BitVec.ofNat 8 w)).isSome then .internal (.setter (BitVec.ofNat 8 w))
  else .internal (.controller (BitVec.ofNat 8 w))

/-- The instruction the decoder reads from the table word `w` of `nbits` bits. -/
def decodeTableWord (nbits w : Nat) : Option Instr :=
  match decode (codeOfTable nbits w) with
  | .ok i => some i
  | .error _ => none

end Sys2Proof
end

