-- ==== Sys2Proof/Machine/Fetch.lean ====
section
/-!
DEFINITION. What the coming step does: go on with a running command, offer a response, or make the
next transfer of a command from the host port (30_encoding.md R84, 60_exceptions.md R290), with the last of
which the command is accepted, decoded and executed.
-/

namespace Sys2Proof.Machine

open Sys2Proof

/-- Acceptance of the command word `w` with its whole payload `p` (R84, R154): the latches are written and
`BUSY <- 1`. -/
@[simps] def State.accept (s : State) (w : Word) (p : List Byte) : State :=
  { s with
    cmdOp := opOf w
    cmdA := aOf w
    cmdB := bOf w
    cmdN := nOf w
    pbuf := p
    cmdHeld := true
    taking := none
    busy := true }

/-- Taking an internal operation issued by itself (log 10): an empty PROG, and no command in CMD_OP. -/
@[simps] def State.beginIssue (s : State) : State :=
  { s with issue := none, busy := true, prog := [], seq := 0, cmdOp := 0 }

/-- After an internal operation issued by itself: what it put into PROG is performed. -/
def startIssued : Host.Outcome State Fault Refusal → Host.Outcome State Fault Refusal
  | .next t => .next t.enter
  | .fault r => .fault r
  | .refused r => .refused r

/-- What a step does. -/
inductive Turn where
  /-- The engine acts without executing an instruction. -/
  | own (t : State)
  /-- A command is accepted, and executed in the state it has been accepted in. -/
  | command (i : Instr) (t : State)
  /-- An internal operation is executed by itself. -/
  | issued (i : Instr) (t : State)
deriving DecidableEq, Repr

/-- Taking an internal operation; what is none is INVALID_COMMAND (log 10). -/
def State.takeIssue (s : State) (x : Internal) : Turn :=
  match decodeInternal x with
  | .ok i => .issued i s.beginIssue
  | .error _ => .own (s.beginIssue.raise .invalidCommand)

/-- The word `w` and the payload bytes `p` have been taken. Until `p` is whole the engine goes on taking;
then the command is accepted, and an illegal one is answered INVALID_COMMAND (R84, R91, R95, R275). -/
def State.gather (s : State) (w : Word) (p : List Byte) : Turn :=
  if p.length < (nOf w).toNat then .own { s with taking := some ⟨w, p⟩ }
  else
    match decodeCommand w p with
    | .ok i => .command i (s.accept w p)
    | .error _ => .own ((s.accept w p).raise .invalidCommand)

/-- Taking a command word (R84). A listed word counts as presented; that the list has no entry for a step
without one is log 16 (DESIGN CHOICE). -/
def State.takeWord (s : State) : Turn :=
  match s.words with
  | [] => .own s
  | w :: ws => ({ s with words := ws } : State).gather w []

/-- Taking a payload byte of the command being taken (R84). A listed byte counts as presented; that the list
has no entry for a step without one is log 16 (DESIGN CHOICE). -/
def State.takeByte (s : State) (k : Taking) : Turn :=
  match s.payload with
  | [] => .own s
  | b :: bs => ({ s with payload := bs } : State).gather k.word (k.bytes ++ [b])

/-- An idle engine goes on with the command it is taking, or looks for something to take: one transfer a
step (log 6). -/
def State.takeNext (s : State) : Turn :=
  match s.taking with
  | some k => s.takeByte k
  | none =>
    match s.issue with
    | some x => s.takeIssue x
    | none => s.takeWord

/-- The reset input's level of this step is consumed. -/
@[simps] def State.popReset (s : State) : State := { s with rst := s.rst.tail }

/-- What the coming step does. Reset wins over everything (R310); a running command goes on before
anything else is taken (R290); a response is given before the next command is taken (R291). -/
def State.turn (s : State) : Turn :=
  if s.resetAsserted then .own s.popReset.hardReset
  else if s.busy then .own s.popReset.runMicro
  else if s.rspValid then .own s.popReset.offer
  else s.popReset.takeNext

/-- The state with an encoded instruction placed where the coming step takes its next one (log 12): a
command is on the host port up to its last transfer, which is its word if it has no payload and else its
last payload byte; anything else is on the internal lane. The engine is made idle and a pending assertion
of reset is removed, so that the very next step takes and runs it. -/
def State.withCode (s : State) : Code → State
  | .command w [] =>
    { s with
      rst := s.rst.dropWhile id
      busy := false
      rspValid := false
      taking := none
      issue := none
      words := w :: s.words }
  | .command w (b :: p) =>
    { s with
      rst := s.rst.dropWhile id
      busy := false
      rspValid := false
      taking := some ⟨w, (b :: p).dropLast⟩
      issue := none
      payload := (b :: p).getLast (List.cons_ne_nil b p) :: s.payload }
  | .internal x =>
    { s with
      rst := s.rst.dropWhile id
      busy := false
      rspValid := false
      taking := none
      issue := some x }

end Sys2Proof.Machine
end

