-- ==== Sys2Proof/Machine/Step.lean ====
section
/-!
DEFINITION. One step of the engine: one tick of a WAIT, one look at the transport, one offer of a
response, or one transfer of a command (log 1).
-/

namespace Sys2Proof.Machine

open Sys2Proof

/-- One step. -/
def step (s : State) : Host.Outcome State Fault Refusal :=
  match s.turn with
  | .own t => .next t
  | .command i t => exec i t
  | .issued i t => startIssued (exec i t)

/-- `s` with the table word `w` of `nbits` bits placed where the coming step takes its next
instruction (log 12). -/
def State.withFetchWord (s : State) (nbits w : Nat) : State := s.withCode (codeOfTable nbits w)

end Sys2Proof.Machine
end

