-- ==== Sys2Proof/Safety.lean ====
section
/-!
DEFINITION. What a sound state of the engine is, in the terms the claims use: the invariant of a running
engine (10_state.md R22, R24, R26, R31, R36, R37; 40_frame_encoder.md R135), the hang (20_memory.md R53),
and the readings of a micro-op list a claim about a whole run needs.
-/

namespace Sys2Proof.Machine

open Sys2Proof

/-- A byte the engine may send (R135): a base frame of the pin map and backlight, or the same with the
enable bit. -/
def BusByte (pm : PinMap) (bl : Bool) (b : Byte) : Prop :=
  ∃ rs n, b = encodeFrame pm bl rs n ∨ b = encodeFrame pm bl rs n ||| bit pm.en

/-- The invariant of an engine that only a host drives. -/
structure EngineInv (s : State) : Prop where
  /-- No internal operation is issued by itself: a host cannot (R98); the lane is the model's (log 10). -/
  noIssue : s.issue = none
  /-- The pin map invariant (R26). -/
  pinMap : s.life ≠ .unconfigured → s.pm.Valid
  /-- PM, MODE and BL hold a value whenever a connection exists or is being made (R40, R285). -/
  held : s.life ≠ .unconfigured → s.connHeld = true
  /-- The mode masks (R31). -/
  masks : s.mode.Masked
  /-- A command runs only on a connection (R274, R285). -/
  busyLife : s.busy = true → s.life ≠ .unconfigured
  /-- INITIALISING is exactly a running CONSTRUCT (R24, R285). -/
  initialising : s.life = .initialising ↔ s.busy = true ∧ s.cmdOp = constructOp
  /-- A running command has no response yet (R23, R84). -/
  busyResponse : s.busy = true → s.rspValid = false
  /-- During a command SEQ names a micro-op of PROG (R22). -/
  position : s.busy = true → s.seq < s.prog.length
  /-- A command is being taken only while the engine is idle and no response waits, and its payload is not
  whole (that no command is taken while a response waits is log 5, that BUSY is 0 until the last byte and
  what stands between is log 6). -/
  taking : ∀ k, s.taking = some k →
    s.busy = false ∧ s.rspValid = false ∧ k.bytes.length < (nOf k.word).toNat
  /-- A byte is presented exactly during a TX micro-op, and it is that micro-op's byte (R37). -/
  presented : ∀ b, s.txValid = true ∧ s.txreg = b ↔
    s.busy = true ∧ s.prog[s.seq]? = some (.tx b)
  /-- TIMER runs only during a WAIT (R36). -/
  timerIdle : (∀ t, ¬ (s.busy = true ∧ s.prog[s.seq]? = some (.wait t))) → s.timer = 0
  /-- PBUF holds the CMD_N bytes of the accepted payload (R21). -/
  payload : s.pbuf.length = s.cmdN.toNat
  /-- Every byte the running command sends is a frame of the current pin map and backlight (R135, R138). -/
  frames : s.busy = true → ∀ b, .tx b ∈ s.prog → BusByte s.pm s.bl b
  /-- The longest program (R22). -/
  length : s.busy = true → s.prog.length ≤ 4352

/-- The engine presents a byte and the transport never answers (R53). -/
abbrev Hung (s : State) : Prop :=
  s.busy = true ∧ s.txValid = true ∧ s.prog[s.seq]? = some (.tx s.txreg) ∧ s.answers = []

/-- The byte on the transport port, if one is presented (R52). -/
def State.txPort (s : State) : Option Byte := if s.txValid then some s.txreg else none

/-- One answer ok for each number of the list, after that many looks without an answer (R53: the latency is
unbounded). -/
def okAfter : List Nat → List TxAnswer
  | [] => []
  | d :: rest => List.replicate d .notYet ++ .ok :: okAfter rest

/-- `n` steps one after the other: `Host.Core.run` of this machine (`runSteps_eq_run` in Laws/Step.lean). -/
def runSteps : Nat → State → Host.Outcome State Fault Refusal
  | 0, s => .next s
  | n + 1, s =>
    match step s with
    | .next t => runSteps n t
    | .fault r => .fault r
    | .refused r => .refused r

/-- Instructions executed one after the other, as the parts of an EXPAND are. -/
def execAll : List Instr → State → Host.Outcome State Fault Refusal
  | [], s => .next s
  | i :: rest, s =>
    match exec i s with
    | .next t => execAll rest t
    | .fault r => .fault r
    | .refused r => .refused r

/-- The emitted instructions a commit of `m` consists of (R188, R111). -/
def commitInstrs (m : Mode) : List Instr :=
  [.lcdEntryModeSet (m.entry.getLsbD 1) (m.entry.getLsbD 0),
   .lcdDisplayModeSet (m.display.getLsbD 2) (m.display.getLsbD 1) (m.display.getLsbD 0),
   .lcdFunctionModeSet (m.function.getLsbD 4) (m.function.getLsbD 3) (m.function.getLsbD 2)]

end Sys2Proof.Machine
end

