-- ==== Sys2Proof/Certificates/Slice0/Obligations.lean ====
section
/-!
DEFINITION. The statements for the provers, in the order of OBLIGATIONS.json. `{ s with … }` names every
field an instruction or a step writes, so each such equation is also the frame: every other register,
input and observation is as before.
-/

open Sys2Proof Sys2Proof.Machine

/-! ### Encoding -/

/-- R85, R89 to R92, R100 to R110: every operand of every well-formed instruction survives its encoding. -/
def Obligations.DecodeOfEncodeIsTheInstruction : Prop :=
  ∀ i : Instr, i.WF → decode (encode i) = .ok i

/-- R90, R91: the decoder answers only with instructions that have an encoding. -/
def Obligations.DecodedInstructionsAreWellFormed : Prop :=
  ∀ (c : Code) (i : Instr), decode c = .ok i → i.WF

/-- R86, R91: an accepted encoding is the encoding of what it decodes to; of a command word only operand
fields its row ignores may differ, and those an instruction uses are read as given. -/
def Obligations.EncodeOfDecodedIsTheCode : Prop :=
  (∀ (x : Internal) (i : Instr), decode (.internal x) = .ok i → encode i = .internal x) ∧
  (∀ (w : Word) (p : List Byte) (i : Instr), decode (.command w p) = .ok i →
    ∃ a b : Byte, encode i = .command (commandWord (opOf w) a b (nOf w)) p ∧
      a = (if opOf w = 0x03 ∨ opOf w = 0x04 ∨ opOf w = 0x05 ∨ opOf w = 0x06 then aOf w else 0) ∧
      b = (if opOf w = 0x03 then bOf w else 0))

/-- R91, R95: with a payload of the length its word announces, a command is rejected exactly when its
opcode is unknown, its N is not legal, or a byte that must be a setter is none. -/
def Obligations.RejectedCommandsAreTheIllegalOnes : Prop :=
  ∀ (w : Word) (p : List Byte), p.length = (nOf w).toNat →
    ((∃ i, decode (.command w p) = .ok i) ↔
      (opOf w = 0x01 ∧ 9 ≤ (nOf w).toNat ∧ ∀ b ∈ p.drop 9, b.toNat ≤ 0x0F) ∨
      (opOf w = 0x02 ∧ ∀ b ∈ p, b.toNat ≤ 0x0F) ∨
      opOf w = 0x03 ∨
      (0x04 ≤ (opOf w).toNat ∧ (opOf w).toNat ≤ 0x0C ∧ nOf w = 0) ∨
      (opOf w = 0x0D ∧ nOf w = 64) ∨
      (0x10 ≤ (opOf w).toNat ∧ (opOf w).toNat ≤ 0x16 ∧ nOf w = 0))

/-- Words written out from R85, R89, R90, R92 and R100 to R110 decode to what they stand for. -/
def Obligations.SampleEncodingsDecode : Prop :=
  decode (.command 0x03010302 [0x41, 0x42]) = .ok (.displayString 1 3 [0x41, 0x42]) ∧
  decode (.command 0x0100000A [0, 1, 2, 4, 5, 6, 7, 3, 0, 0x08]) =
    .ok (.construct ⟨0, 1, 2, 4, 5, 6, 7, 3, 0⟩ [.blinkOn]) ∧
  decode (.command 0x02000002 [0x06, 0x10]) = .error (.notASetter 0x10) ∧
  decode (.command 0x0E000000 []) = .error (.unknownOpcode 0x0E) ∧
  decode (.internal (.setter 0x0B)) = .ok .eightBitMode ∧
  decode (.internal (.controller 0xC3)) = .ok (.lcdSetDdram 0x43) ∧
  decode (.internal (.controller 0x28)) = .ok (.lcdFunctionModeSet false true false) ∧
  decode (.internal (.nibble 0x2)) = .ok .nib4Bit

/-! ### Frames and micro-op lists -/

/-- R130: validation yields a pin map exactly when every position byte is in 0..7, the polarity byte in
0..1 and the eight positions are pairwise distinct, and then the map holds these values; otherwise
CONSTRUCT answers INVALID_CONFIGURATION (R131, R221, R270) and writes nothing else. The range checks are the
spec's own decision D6, the number 0x02 of the status its decision D7. -/
def Obligations.PinMapValidationAcceptsExactlyPermutations : Prop :=
  ∀ p : PinBytes,
    (∀ pm : PinMap, validatePinMap p = some pm ↔
      p.rs.toNat = pm.rs.val ∧ p.rw.toNat = pm.rw.val ∧ p.en.toNat = pm.en.val ∧
      p.d4.toNat = pm.d4.val ∧ p.d5.toNat = pm.d5.val ∧ p.d6.toNat = pm.d6.val ∧
      p.d7.toNat = pm.d7.val ∧ p.bl.toNat = pm.bl.val ∧ p.pol = (if pm.pol then 1 else 0) ∧
      [p.rs, p.rw, p.en, p.d4, p.d5, p.d6, p.d7, p.bl].Nodup) ∧
    (validatePinMap p = none → ∀ (ss : List Setter) (s : State),
      exec (.construct p ss) s =
        .next { s with busy := false, rspValid := true, rspStatus := 0x02, rspValue := 0x00 })

/-- R136: both frames of a value carry its nibbles on the data lines, the register-select flag, and the
constant or computed levels of the other signals. -/
def Obligations.FramesDecodeToTheValue : Prop :=
  ∀ (pm : PinMap) (bl rs : Bool) (v : Byte), pm.Valid →
    let F := split pm bl rs v
    nibbleOf pm F.1 = v.extractLsb' 4 4 ∧ nibbleOf pm F.2 = v.extractLsb' 0 4 ∧
    F.1.getLsbD pm.rs.val = rs ∧ F.2.getLsbD pm.rs.val = rs ∧
    F.1.getLsbD pm.rw.val = false ∧ F.2.getLsbD pm.rw.val = false ∧
    F.1.getLsbD pm.en.val = false ∧ F.2.getLsbD pm.en.val = false ∧
    F.1.getLsbD pm.bl.val = (bl ^^ pm.pol) ∧ F.2.getLsbD pm.bl.val = (bl ^^ pm.pol)

/-- R80, R132, R137: under a valid map every bit of a base frame is the one signal placed there. -/
def Obligations.EveryFrameBitIsItsSignal : Prop :=
  ∀ (pm : PinMap) (bl rs : Bool) (n : Nibble) (q : Pos), pm.Valid →
    (encodeFrame pm bl rs n).getLsbD q.val =
      if q = pm.d4 then n.getLsbD 0
      else if q = pm.d5 then n.getLsbD 1
      else if q = pm.d6 then n.getLsbD 2
      else if q = pm.d7 then n.getLsbD 3
      else if q = pm.rs then rs
      else if q = pm.bl then (bl ^^ pm.pol)
      else false

/-- R150, R151: the strobe and its delays; the example of the rule. -/
def Obligations.NibbleFrameIsStrobed : Prop :=
  (∀ (pm : PinMap) (bl rs : Bool) (n : Nibble),
    let f := encodeFrame pm bl rs n
    nibbleOps Config.spec pm bl rs n =
      [.wait 1, .tx f, .wait 1, .tx (f ||| bit pm.en), .wait 200, .wait 1, .tx f, .wait 30] ∧
    (nibbleOps Config.spec pm bl rs n).length = 8 ∧
    (txBytes (nibbleOps Config.spec pm bl rs n)).length = 3 ∧
    waitSum (nibbleOps Config.spec pm bl rs n) = 233) ∧
  nibbleOps Config.spec ⟨0, 1, 2, 4, 5, 6, 7, 3, false⟩ false true 0x4 =
    [.wait 1, .tx 0x41, .wait 1, .tx 0x45, .wait 200, .wait 1, .tx 0x41, .wait 30]

/-- R152, R153, R112, R160: a byte is its high and its low nibble frame and a settle delay, 1600 µs for the
instruction bytes 0x01, 0x02, 0x03 and 40 µs for every other write. The class and the level 0 of an
instruction are the spec's own, from general knowledge (R112 with G8 to G10, R81; log 8, log 28). -/
def Obligations.ByteIsTwoFramesAndASettleDelay : Prop :=
  ∀ (pm : PinMap) (bl rs : Bool) (v : Byte),
    let F := split pm bl rs v
    let settle := if rs = false ∧ (v = 0x01 ∨ v = 0x02 ∨ v = 0x03) then 1600 else 40
    byteOps Config.spec pm bl rs v =
      nibbleOps Config.spec pm bl rs (v.extractLsb' 4 4) ++
      nibbleOps Config.spec pm bl rs (v.extractLsb' 0 4) ++ [.wait settle] ∧
    (byteOps Config.spec pm bl rs v).length = 17 ∧
    txBytes (byteOps Config.spec pm bl rs v) =
      [F.1, F.1 ||| bit pm.en, F.1, F.2, F.2 ||| bit pm.en, F.2] ∧
    waitSum (byteOps Config.spec pm bl rs v) = 466 + settle

/-- R188: entry, display, function, each a whole instruction write with the ordinary settle delay; the
counts and the example of the rule. The three prefixes are the spec's own, from general knowledge (G1;
log 8). -/
def Obligations.CommitSendsEntryDisplayFunction : Prop :=
  (∀ (pm : PinMap) (bl : Bool) (m : Mode),
    commitOps Config.spec pm bl m =
      byteOps Config.spec pm bl false (0x04 ||| m.entry) ++
      byteOps Config.spec pm bl false (0x08 ||| m.display) ++
      byteOps Config.spec pm bl false (0x20 ||| m.function) ∧
    (commitOps Config.spec pm bl m).length = 51 ∧
    (txBytes (commitOps Config.spec pm bl m)).length = 18 ∧
    waitSum (commitOps Config.spec pm bl m) = 1518) ∧
  txBytes (commitOps Config.spec ⟨0, 1, 2, 4, 5, 6, 7, 3, false⟩ false Mode.default) =
    [0x00, 0x04, 0x00, 0x60, 0x64, 0x60, 0x00, 0x04, 0x00, 0xC0, 0xC4, 0xC0,
     0x20, 0x24, 0x20, 0x80, 0x84, 0x80]

/-- R222, R223: the seven steps of the initialization at their indices, and the counts. The delay after
steps 4 and 5 is the spec's decision D15, the clear byte is from general knowledge (G1; log 8). -/
def Obligations.InitializationListIsTheSevenSteps : Prop :=
  ∀ (pm : PinMap) (bl : Bool) (m : Mode),
    let L := initOps Config.spec pm bl m
    L.length = 105 ∧ (txBytes L).length = 36 ∧ waitSum L = 23796 ∧
    L.take 1 = [.wait 15000] ∧
    (L.drop 1).take 9 = nibbleOps Config.spec pm bl false 0x3 ++ [.wait 4100] ∧
    (L.drop 10).take 9 = nibbleOps Config.spec pm bl false 0x3 ++ [.wait 100] ∧
    (L.drop 19).take 9 = nibbleOps Config.spec pm bl false 0x3 ++ [.wait 40] ∧
    (L.drop 28).take 9 = nibbleOps Config.spec pm bl false 0x2 ++ [.wait 40] ∧
    (L.drop 37).take 17 = byteOps Config.spec pm bl false 0x01 ∧
    L.drop 54 = commitOps Config.spec pm bl m

/-! ### Mode setters -/

/-- R171 to R180: the code of each entry and display setter, the one bit of MODE it writes and nothing
else, and the example of its rule with the mode byte that would be sent. The bit positions and the mode
bytes are the spec's own, from general knowledge (R28, R29; log 8); a setter executed as an instruction
by itself is the model's choice (log 10; R98, R170: a setter is no command). -/
def Obligations.EntryAndDisplaySettersWriteTheirBit : Prop :=
  (∀ r ∈ ([(0x00, .entryIncrement), (0x01, .entryDecrement), (0x02, .entryShiftOn),
      (0x03, .entryShiftOff), (0x04, .displayOn), (0x05, .displayOff), (0x06, .cursorOn),
      (0x07, .cursorOff), (0x08, .blinkOn), (0x09, .blinkOff)] : List (Byte × Instr)),
    decode (.internal (.setter r.1)) = .ok r.2) ∧
  (∀ r ∈ ([(.entryIncrement, 0x00, 0x02, 0x06), (.entryDecrement, 0x02, 0x00, 0x04),
      (.entryShiftOn, 0x02, 0x03, 0x07), (.entryShiftOff, 0x03, 0x02, 0x06)] :
      List (Setter × Byte × Byte × Byte)),
    Setter.apply r.1 ⟨r.2.1, 0x04, 0x08⟩ = ⟨r.2.2.1, 0x04, 0x08⟩ ∧
      entryByte Config.spec r.2.2.1 = r.2.2.2) ∧
  (∀ r ∈ ([(.displayOn, 0x00, 0x04, 0x0C), (.displayOff, 0x04, 0x00, 0x08),
      (.cursorOn, 0x04, 0x06, 0x0E), (.cursorOff, 0x06, 0x04, 0x0C),
      (.blinkOn, 0x04, 0x05, 0x0D), (.blinkOff, 0x05, 0x04, 0x0C)] :
      List (Setter × Byte × Byte × Byte)),
    Setter.apply r.1 ⟨0x02, r.2.1, 0x08⟩ = ⟨0x02, r.2.2.1, 0x08⟩ ∧
      displayByte Config.spec r.2.2.1 = r.2.2.2) ∧
  ∀ s : State,
    exec .entryIncrement s =
      .next { s with mode := { s.mode with entry := s.mode.entry ||| 0x02 } } ∧
    exec .entryDecrement s =
      .next { s with mode := { s.mode with entry := s.mode.entry &&& 0xFD } } ∧
    exec .entryShiftOn s =
      .next { s with mode := { s.mode with entry := s.mode.entry ||| 0x01 } } ∧
    exec .entryShiftOff s =
      .next { s with mode := { s.mode with entry := s.mode.entry &&& 0xFE } } ∧
    exec .displayOn s =
      .next { s with mode := { s.mode with display := s.mode.display ||| 0x04 } } ∧
    exec .displayOff s =
      .next { s with mode := { s.mode with display := s.mode.display &&& 0xFB } } ∧
    exec .cursorOn s =
      .next { s with mode := { s.mode with display := s.mode.display ||| 0x02 } } ∧
    exec .cursorOff s =
      .next { s with mode := { s.mode with display := s.mode.display &&& 0xFD } } ∧
    exec .blinkOn s =
      .next { s with mode := { s.mode with display := s.mode.display ||| 0x01 } } ∧
    exec .blinkOff s =
      .next { s with mode := { s.mode with display := s.mode.display &&& 0xFE } }

/-- R181 to R186: the code of each function setter, the one bit of MODE it writes and nothing else, and
the example of its rule with the mode byte that would be sent. That EightBitMode (R182) exists is the spec's
decision D37. The bit positions and the mode bytes are the spec's own, from general knowledge (R30; log 8);
a setter executed as an instruction by itself is the model's choice (log 10; R98, R170). -/
def Obligations.FunctionSettersWriteTheirBit : Prop :=
  (∀ r ∈ ([(0x0A, .fourBitMode), (0x0B, .eightBitMode), (0x0C, .oneLine), (0x0D, .twoLine),
      (0x0E, .dots5x8), (0x0F, .dots5x10)] : List (Byte × Instr)),
    decode (.internal (.setter r.1)) = .ok r.2) ∧
  (∀ r ∈ ([(.fourBitMode, 0x18, 0x08, 0x28), (.eightBitMode, 0x08, 0x18, 0x38),
      (.oneLine, 0x08, 0x00, 0x20), (.twoLine, 0x00, 0x08, 0x28), (.dots5x8, 0x0C, 0x08, 0x28),
      (.dots5x10, 0x08, 0x0C, 0x2C)] : List (Setter × Byte × Byte × Byte)),
    Setter.apply r.1 ⟨0x02, 0x04, r.2.1⟩ = ⟨0x02, 0x04, r.2.2.1⟩ ∧
      functionByte Config.spec r.2.2.1 = r.2.2.2) ∧
  ∀ s : State,
    exec .fourBitMode s =
      .next { s with mode := { s.mode with function := s.mode.function &&& 0xEF } } ∧
    exec .eightBitMode s =
      .next { s with mode := { s.mode with function := s.mode.function ||| 0x10 } } ∧
    exec .oneLine s =
      .next { s with mode := { s.mode with function := s.mode.function &&& 0xF7 } } ∧
    exec .twoLine s =
      .next { s with mode := { s.mode with function := s.mode.function ||| 0x08 } } ∧
    exec .dots5x8 s =
      .next { s with mode := { s.mode with function := s.mode.function &&& 0xFB } } ∧
    exec .dots5x10 s =
      .next { s with mode := { s.mode with function := s.mode.function ||| 0x04 } }

/-- R200: (a) idempotence, (b) pair override, (c) independence of the three fields, (d) mask invariance,
(e) clear transparency for the seven query values, (f) exactly the masked modes are reached from DEFAULT,
and there are 256 of them. The reachability (f) is the spec's own inference ('derived: from rules R171 to
R186'). Two setters are a pair when their codes differ in bit 0 only (R92). -/
def Obligations.SetterLaws : Prop :=
  (∀ (x : Setter) (m : Mode), Setter.apply x (Setter.apply x m) = Setter.apply x m) ∧
  (∀ (x y : Setter) (m : Mode), x.code >>> 1 = y.code >>> 1 →
    Setter.apply y (Setter.apply x m) = Setter.apply y m) ∧
  (∀ (x : Setter) (m : Mode),
    (x.code.toNat < 0x04 ∧ (Setter.apply x m).display = m.display ∧
      (Setter.apply x m).function = m.function) ∨
    (0x04 ≤ x.code.toNat ∧ x.code.toNat < 0x0A ∧ (Setter.apply x m).entry = m.entry ∧
      (Setter.apply x m).function = m.function) ∨
    (0x0A ≤ x.code.toNat ∧ (Setter.apply x m).entry = m.entry ∧
      (Setter.apply x m).display = m.display)) ∧
  (∀ (x : Setter) (m : Mode), m.Masked → (Setter.apply x m).Masked) ∧
  Mode.default.Masked ∧
  (∀ (s t : State) (q : Instr) (v w : State),
    q ∈ [Instr.qEntryIncrement, .qShiftOn, .qDisplayOn, .qCursorOn, .qBlinkOn, .qBusWidth,
      .qLineCount] →
    exec .clear s = .next t → exec q s = .next v → exec q t = .next w →
    w.rspValue = v.rspValue) ∧
  (∀ m : Mode, m.Masked ↔ ∃ xs : List Setter, applySetters xs Mode.default = m) ∧
  (∃ L : List Mode, L.Nodup ∧ L.length = 256 ∧ ∀ m : Mode, m ∈ L ↔ m.Masked)

/-- R187: a list is applied from the left, so of two setters of one pair the later wins, and setters of
different pairs commute; the example of the rule. That the later wins and that different pairs commute is
the spec's own inference ('derived: from rule R170'); the bit positions in the example are log 8. -/
def Obligations.SettersApplyLeftToRight : Prop :=
  (∀ m : Mode, applySetters [] m = m) ∧
  (∀ (x : Setter) (rest : List Setter) (m : Mode),
    applySetters ([x] ++ rest) m = applySetters rest (Setter.apply x m)) ∧
  (∀ (x y : Setter) (xs ys : List Setter) (m : Mode), x.code >>> 1 = y.code >>> 1 →
    applySetters (xs ++ [x, y] ++ ys) m = applySetters (xs ++ [y] ++ ys) m) ∧
  (∀ (x y : Setter) (xs ys : List Setter) (m : Mode), x.code >>> 1 ≠ y.code >>> 1 →
    applySetters (xs ++ [x, y] ++ ys) m = applySetters (xs ++ [y, x] ++ ys) m) ∧
  (applySetters [.cursorOn, .blinkOn, .cursorOff] Mode.default).display = 0x05

/-! ### Commands: what executing one does -/

/-- R220, R221, R222, R226: with a valid pin map CONSTRUCT, in every lifecycle state, writes PM, BL, MODE,
FAULT and LIFE and begins the initialization list with the power-settle wait. BL and FAULT becoming 0 are
the spec's decision D12 (log 25). -/
def Obligations.ConstructConfiguresAndStartsInitialization : Prop :=
  ∀ (s : State) (p : PinBytes) (ss : List Setter) (pm : PinMap), s.cfg = Config.spec →
    validatePinMap p = some pm →
    exec (.construct p ss) s = .next
      { s with
        pm := pm
        bl := false
        mode := applySetters ss ⟨0x02, 0x04, 0x08⟩
        fault := false
        life := .initialising
        connHeld := true
        busy := true
        prog := initOps Config.spec pm false (applySetters ss ⟨0x02, 0x04, 0x08⟩)
        seq := 0
        timer := ticksOf s.tickNs 15000 }

/-- R190: SET_MODE applies its setters to MODE and commits the result. -/
def Obligations.SetModeAppliesThenCommits : Prop :=
  ∀ (s : State) (ss : List Setter), s.cfg = Config.spec → s.life = .ready →
    exec (.setMode ss) s = .next
      { s with
        mode := applySetters ss s.mode
        busy := true
        prog := commitOps Config.spec s.pm s.bl (applySetters ss s.mode)
        seq := 0
        timer := ticksOf s.tickNs 1 }

/-- R191: CLEAR keeps MODE and sends the clear instruction, then a commit of MODE. The clear byte is from
general knowledge (G1; log 8). -/
def Obligations.ClearSendsClearThenCommit : Prop :=
  ∀ s : State, s.cfg = Config.spec → s.life = .ready →
    exec .clear s = .next
      { s with
        busy := true
        prog := byteOps Config.spec s.pm s.bl false 0x01 ++ commitOps Config.spec s.pm s.bl s.mode
        seq := 0
        timer := ticksOf s.tickNs 1 }

/-- R158, R159, R157, R81: the two raw writes send their operand unchanged, as data and as an instruction;
MODE and every other register are left alone, whatever the byte. -/
def Obligations.RawWritesSendTheirOperand : Prop :=
  ∀ (s : State) (v : Byte), s.cfg = Config.spec → s.life = .ready →
    exec (.writeChar v) s = .next
      { s with busy := true, prog := byteOps Config.spec s.pm s.bl true v, seq := 0,
               timer := ticksOf s.tickNs 1 } ∧
    exec (.writeInstruction v) s = .next
      { s with busy := true, prog := byteOps Config.spec s.pm s.bl false v, seq := 0,
               timer := ticksOf s.tickNs 1 }

/-- R240, R244, R245, R246: the one instruction byte each of these commands sends. The home and shift
bytes are from general knowledge (G1; log 8). -/
def Obligations.SingleInstructionCommandsSendTheirByte : Prop :=
  ∀ (s : State) (a : Byte), s.cfg = Config.spec → s.life = .ready →
    exec (.setCursorAddress a) s = .next
      { s with busy := true, prog := byteOps Config.spec s.pm s.bl false (0x80 ||| a), seq := 0,
               timer := ticksOf s.tickNs 1 } ∧
    exec .home s = .next
      { s with busy := true, prog := byteOps Config.spec s.pm s.bl false 0x02, seq := 0,
               timer := ticksOf s.tickNs 1 } ∧
    exec .shiftLeft s = .next
      { s with busy := true, prog := byteOps Config.spec s.pm s.bl false 0x18, seq := 0,
               timer := ticksOf s.tickNs 1 } ∧
    exec .shiftRight s = .next
      { s with busy := true, prog := byteOps Config.spec s.pm s.bl false 0x1C, seq := 0,
               timer := ticksOf s.tickNs 1 }

/-- R248, R249, R138: the backlight commands write BL first and encode their 0x00 with the new value.
That they send the instruction 0x00 is the spec's decision D13. -/
def Obligations.BacklightCommandsWriteThenSend : Prop :=
  ∀ s : State, s.cfg = Config.spec → s.life = .ready →
    exec .backlightOn s = .next
      { s with bl := true, busy := true, prog := byteOps Config.spec s.pm true false 0x00, seq := 0,
               timer := ticksOf s.tickNs 1 } ∧
    exec .backlightOff s = .next
      { s with bl := false, busy := true, prog := byteOps Config.spec s.pm false false 0x00, seq := 0,
               timer := ticksOf s.tickNs 1 }

/-- R241, R242, R273: DISPLAY_STRING positions the cursor once at base plus column modulo 256 and sends the
characters in order as data; a line above 3 is INVALID_ADDRESS with nothing sent or written. -/
def Obligations.DisplayStringPositionsThenStreams : Prop :=
  ∀ (s : State) (line column : Byte) (text : List Byte), s.cfg = Config.spec → s.life = .ready →
    (∀ base : Byte, (line, base) ∈ [((0 : Byte), (0x00 : Byte)), (1, 0x40), (2, 0x10), (3, 0x54)] →
      exec (.displayString line column text) s = .next
        { s with
          busy := true
          prog := byteOps Config.spec s.pm s.bl false (0x80 ||| (base + column)) ++
            text.flatMap (byteOps Config.spec s.pm s.bl true)
          seq := 0
          timer := ticksOf s.tickNs 1 }) ∧
    (3 < line.toNat →
      exec (.displayString line column text) s = .next
        { s with busy := false, rspValid := true, rspStatus := 0x03, rspValue := 0x00 })

/-- R250, R251, R57: the CGRAM address once, then every row byte unmasked and in order. The set-CGRAM byte
is from general knowledge (G1; log 8); not masking is the spec's decision D23. -/
def Obligations.LoadCustomCharsStreamsTheRows : Prop :=
  ∀ (s : State) (g : List Byte), s.cfg = Config.spec → s.life = .ready →
    exec (.loadCustomChars g) s = .next
      { s with
        busy := true
        prog := byteOps Config.spec s.pm s.bl false 0x40 ++
          g.flatMap (byteOps Config.spec s.pm s.bl true)
        seq := 0
        timer := ticksOf s.tickNs 1 }

/-- R192 to R199, R94, R155: a query answers at once with its value, and sends nothing. LIFE is READY
already, so the FINISH of R225 has no part in it. The bit positions are the spec's own, from general
knowledge (R28 to R30; log 8); what PROG and SEQ hold afterwards is the model's (log 14). -/
def Obligations.QueriesAnswerTheirModeBit : Prop :=
  ∀ s : State, s.life = .ready →
    let answered := fun v : Byte => (.next
      { s with busy := false, prog := [], seq := 0, rspValid := true, rspStatus := 0x00,
               rspValue := v } : Host.Outcome State Fault Refusal)
    exec .qEntryIncrement s = answered (if s.mode.entry.getLsbD 1 then 0x01 else 0x00) ∧
    exec .qShiftOn s = answered (if s.mode.entry.getLsbD 0 then 0x01 else 0x00) ∧
    exec .qDisplayOn s = answered (if s.mode.display.getLsbD 2 then 0x01 else 0x00) ∧
    exec .qCursorOn s = answered (if s.mode.display.getLsbD 1 then 0x01 else 0x00) ∧
    exec .qBlinkOn s = answered (if s.mode.display.getLsbD 0 then 0x01 else 0x00) ∧
    exec .qBusWidth s = answered (if s.mode.function.getLsbD 4 then 0x08 else 0x04) ∧
    exec .qLineCount s = answered (if s.mode.function.getLsbD 3 then 0x02 else 0x01)

/-- R100 to R110, R157: an emitted instruction adds its byte's micro-ops to PROG, a nibble its one frame.
That it is an instruction by itself is the model's choice (log 10). -/
def Obligations.EmittedInstructionsExtendTheProgram : Prop :=
  ∀ s : State, s.cfg = Config.spec →
    let adds := fun v : Byte => (.next
      { s with prog := s.prog ++ byteOps Config.spec s.pm s.bl false v } :
        Host.Outcome State Fault Refusal)
    exec .lcdClear s = adds 0x01 ∧
    exec (.lcdHome false) s = adds 0x02 ∧ exec (.lcdHome true) s = adds 0x03 ∧
    (∀ inc shift : Bool, exec (.lcdEntryModeSet inc shift) s =
      adds (0x04 ||| (if inc then 0x02 else 0) ||| (if shift then 0x01 else 0))) ∧
    (∀ d c b : Bool, exec (.lcdDisplayModeSet d c b) s =
      adds (0x08 ||| (if d then 0x04 else 0) ||| (if c then 0x02 else 0) |||
        (if b then 0x01 else 0))) ∧
    exec .lcdShiftLeft s = adds 0x18 ∧
    exec .lcdShiftRight s = adds 0x1C ∧
    (∀ dl n f : Bool, exec (.lcdFunctionModeSet dl n f) s =
      adds (0x20 ||| (if dl then 0x10 else 0) ||| (if n then 0x08 else 0) |||
        (if f then 0x04 else 0))) ∧
    exec .lcdNop s = adds 0x00 ∧
    (∀ a : BitVec 7, exec (.lcdSetDdram a) s = adds (0x80 ||| a.setWidth 8)) ∧
    exec .lcdSetCgram s = adds 0x40 ∧
    exec .nibReset s =
      .next { s with prog := s.prog ++ nibbleOps Config.spec s.pm s.bl false 0x3 } ∧
    exec .nib4Bit s =
      .next { s with prog := s.prog ++ nibbleOps Config.spec s.pm s.bl false 0x2 }

/-- R102, R103, R106, R111, R188, R191, R244: the program of a clear, of a commit and of a home is what the
emitted instructions of the table build one after the other, from the bits of MODE. -/
def Obligations.CommandsAreBuiltFromEmittedInstructions : Prop :=
  ∀ (s t : State), s.cfg = Config.spec → s.life = .ready → s.mode.Masked →
    (exec .clear s = .next t → ∃ u,
      execAll (.lcdClear :: commitInstrs s.mode) { s with prog := [] } = .next u ∧ t.prog = u.prog) ∧
    (exec (.setMode []) s = .next t → ∃ u,
      execAll (commitInstrs s.mode) { s with prog := [] } = .next u ∧ t.prog = u.prog) ∧
    (exec .home s = .next t → ∃ u,
      execAll [.lcdHome false] { s with prog := [] } = .next u ∧ t.prog = u.prog)

/-- R274, R285: without a ready connection every command but CONSTRUCT answers NOT_READY and changes
nothing else. -/
def Obligations.NotReadyRefusesEverythingButConstruct : Prop :=
  ∀ (s : State) (ss : List Setter) (x y : Byte) (l : List Byte), s.life ≠ .ready →
    ∀ i ∈ [Instr.setMode ss, .displayString x y l, .writeChar x, .writeInstruction x,
        .setCursorAddress x, .clear, .home, .shiftLeft, .shiftRight, .backlightOn, .backlightOff,
        .loadCustomChars l, .qEntryIncrement, .qShiftOn, .qDisplayOn, .qCursorOn, .qBlinkOn,
        .qBusWidth, .qLineCount],
      exec i s =
        .next { s with busy := false, rspValid := true, rspStatus := 0x04, rspValue := 0x00 }

/-- R243, R340: bus writes and waits, when every write succeeds, of every command of the table, the queries'
none among them; those of a nibble frame and of a byte stand in the statements about these. The totals are
the spec's own inference ('derived: from 41_nibble_write.md rules R150 and R152'), and so are those of R243.
The settle class behind 2066 is log 28, the clear and home bytes log 8. -/
def Obligations.BusWriteAndWaitTotals : Prop :=
  ∀ (s t : State) (p : PinBytes) (ss : List Setter) (line column v : Byte) (l : List Byte),
    s.cfg = Config.spec →
    let costs := fun (i : Instr) (writes waits : Nat) =>
      exec i s = .next t → (txBytes t.prog).length = writes ∧ waitSum t.prog = waits
    (validatePinMap p ≠ none → costs (.construct p ss) 36 23796) ∧
    (s.life = .ready →
      costs (.setMode ss) 18 1518 ∧ costs .clear 24 3584 ∧ costs .home 6 2066 ∧
      costs .shiftLeft 6 506 ∧ costs .shiftRight 6 506 ∧ costs (.writeChar v) 6 506 ∧
      costs (.setCursorAddress v) 6 506 ∧ costs .backlightOn 6 506 ∧ costs .backlightOff 6 506 ∧
      costs (.writeInstruction v) 6 (if v = 0x01 ∨ v = 0x02 ∨ v = 0x03 then 2066 else 506) ∧
      (line.toNat ≤ 3 →
        costs (.displayString line column l) (6 * (1 + l.length)) (506 * (1 + l.length))) ∧
      (l.length = 64 → costs (.loadCustomChars l) 390 32890) ∧
      (∀ q ∈ [Instr.qEntryIncrement, .qShiftOn, .qDisplayOn, .qCursorOn, .qBlinkOn, .qBusWidth,
        .qLineCount], costs q 0 0))

/-! ### Steps -/

/-- R84, R90, R154: with the last transfer of a legal command (its word, if it has no payload, and else its
last payload byte) an idle engine writes the latches, sets BUSY, and does what executing the command does.
That this is one step is the model's granularity (log 1, log 6). -/
def Obligations.StepExecutesTheAcceptedCommand : Prop :=
  ∀ (s : State) (w : Word) (p : List Byte) (i : Instr),
    s.rst.headD false = false → s.busy = false → s.rspValid = false →
    decode (.command w p) = .ok i →
    let accepted := fun (ws : List Word) (rest : List Byte) =>
      { s with
        rst := s.rst.tail
        words := ws
        payload := rest
        taking := none
        cmdOp := opOf w
        cmdA := aOf w
        cmdB := bOf w
        cmdN := nOf w
        pbuf := p
        cmdHeld := true
        busy := true }
    (∀ ws, p = [] → s.taking = none → s.issue = none → s.words = w :: ws →
      step s = exec i (accepted ws s.payload)) ∧
    (∀ (q : List Byte) (b : Byte) (rest : List Byte), p = q ++ [b] → s.taking = some ⟨w, q⟩ →
      s.payload = b :: rest → step s = exec i (accepted s.words rest))

/-- The model's choice (log 10): an internal operation issued by itself is executed on an empty PROG, and
then begins what it put there, or ends with OK if it put nothing there. -/
def Obligations.StepExecutesAnIssuedOperation : Prop :=
  ∀ (s t : State) (x : Internal) (i : Instr),
    s.rst.headD false = false → s.busy = false → s.rspValid = false → s.taking = none →
    s.issue = some x →
    decode (.internal x) = .ok i →
    exec i { s with rst := s.rst.tail, issue := none, busy := true, prog := [], seq := 0,
                    cmdOp := 0 } = .next t →
    step s = .next
      (match t.prog[t.seq]? with
        | none => { t with busy := false, rspValid := true, rspStatus := 0x00, rspValue := 0x00,
                           life := if t.cmdOp = 0x01 then .ready else t.life }
        | some (.wait d) => { t with timer := ticksOf t.tickNs d }
        | some (.tx b) => { t with txreg := b, txValid := true })

/-- R95, R275, R281: an illegal command is answered INVALID_COMMAND after its payload has been consumed, in
every lifecycle state; only the operand latches and the response change, and nothing is sent. That the
latches are written, with the fields as given, although the rules say 'no state change', is read from R21
(log 20 and log 23, DEDUCED). -/
def Obligations.IllegalCommandIsAnsweredAfterItsPayload : Prop :=
  ∀ (s : State) (w : Word) (p : List Byte) (r : Reject),
    s.rst.headD false = false → s.busy = false → s.rspValid = false →
    p.length = (nOf w).toNat → decode (.command w p) = .error r →
    let answered := fun (ws : List Word) (rest : List Byte) =>
      { s with
        rst := s.rst.tail
        words := ws
        payload := rest
        taking := none
        cmdOp := opOf w
        cmdA := aOf w
        cmdB := bOf w
        cmdN := nOf w
        pbuf := p
        cmdHeld := true
        busy := false
        rspValid := true
        rspStatus := 0x05
        rspValue := 0x00 }
    (∀ ws, p = [] → s.taking = none → s.issue = none → s.words = w :: ws →
      step s = .next (answered ws s.payload)) ∧
    (∀ (q : List Byte) (b : Byte) (rest : List Byte), p = q ++ [b] → s.taking = some ⟨w, q⟩ →
      s.payload = b :: rest → step s = .next (answered s.words rest))

/-- R84, R290: without a presented word, or, once a word has been taken, without a presented payload byte,
an idle engine does nothing; a busy engine, and one whose response is not taken, takes no word and no
payload byte. That an unread response blocks the next transfer is log 5 (DEDUCED); that a word is not taken
before the payload of the word before it is whole is log 6 (DEDUCED). -/
def Obligations.NothingIsTakenBeforeItsTime : Prop :=
  ∀ s : State, s.rst.headD false = false →
    (s.busy = false → s.rspValid = false → s.taking = none → s.issue = none → s.words = [] →
      step s = .next { s with rst := s.rst.tail }) ∧
    (∀ k, s.busy = false → s.rspValid = false → s.taking = some k → s.payload = [] →
      step s = .next { s with rst := s.rst.tail }) ∧
    (∀ k, s.taking = some k → ∃ t, step s = .next t ∧ t.words = s.words ∧ t.issue = s.issue) ∧
    (s.busy = true ∨ s.rspValid = true → ∃ t, step s = .next t ∧ t.words = s.words ∧
      t.payload = s.payload ∧ t.issue = s.issue ∧ t.taking = s.taking)

/-- R84, R88, R291: an offered response is taken when the host is ready, exactly once, and held otherwise.
That its bytes stay on the port after they have been taken is the model's (log 26). -/
def Obligations.ResponseIsHeldUntilTaken : Prop :=
  ∀ s : State, s.rst.headD false = false → s.busy = false → s.rspValid = true →
    (s.rspReady.headD true = true → step s = .next
      { s with
        rst := s.rst.tail
        rspReady := s.rspReady.tail
        rspValid := false
        responses := s.responses ++ [⟨s.rspStatus, s.rspValue⟩] }) ∧
    (s.rspReady.headD true = false → step s = .next
      { s with rst := s.rst.tail, rspReady := s.rspReady.tail })

/-- R40, R310, U7: an assertion of reset, at any time, leaves the values R40 gives, cuts a running command
off without a response, withdraws a presented byte, and leaves what has been seen on the bus, the inputs
and the parameters alone. That reset wins over everything else of the same step, consumes no answer and
leaves words, payload, answers and rspReady as they are is log 17 (DEDUCED). A command of which the word
has been taken and the payload not whole is dropped with the bytes already taken (log 6, DEDUCED). -/
def Obligations.ResetInputWinsOverEverything : Prop :=
  ∀ s : State, s.rst.headD false = true → ∃ t, step s = .next t ∧
    t.life = .unconfigured ∧ t.busy = false ∧ t.fault = false ∧ t.txValid = false ∧
    t.taking = none ∧ t.rspValid = false ∧ t.prog = [] ∧ t.seq = 0 ∧ t.timer = 0 ∧
    t.connHeld = false ∧
    t.cmdHeld = false ∧ t.trace = s.trace ∧ t.responses = s.responses ∧ t.words = s.words ∧
    t.payload = s.payload ∧ t.answers = s.answers ∧ t.cfg = s.cfg ∧ t.tickNs = s.tickNs ∧
    t.issue = s.issue ∧ t.rspReady = s.rspReady ∧ t.rst = s.rst.tail

/-- R40, R310: the values the spec gives for the state after reset; PM, MODE, BL and the latches hold none,
nothing is presented, nothing has been sent. -/
def Obligations.ResetStateIsTheTableOfReset : Prop :=
  State.reset.life = .unconfigured ∧ State.reset.busy = false ∧ State.reset.fault = false ∧
  State.reset.prog = [] ∧ State.reset.seq = 0 ∧ State.reset.timer = 0 ∧
  State.reset.txValid = false ∧ State.reset.taking = none ∧
  State.reset.rspValid = false ∧ State.reset.connHeld = false ∧
  State.reset.cmdHeld = false ∧ State.reset.trace = []

/-- R36, R13, D2: the tick count of a delay is its rounded-up quotient. TIMER is loaded with it when a WAIT
begins, after a write answered ok and after another WAIT (after an acceptance too: the statements of the
commands say that). A WAIT with its count in TIMER counts down once a step, is not done before TIMER has run
down, and is then recorded and followed by the next micro-op. That it lasts exactly its count of steps, and
a WAIT of 0 ticks one step, is the model's choice (log 19): the rules give a lower bound. -/
def Obligations.WaitLastsItsTicks : Prop :=
  (∀ tick t : Nat, 0 < tick →
    t * 1000 ≤ ticksOf tick t * tick ∧ ticksOf tick t * tick < t * 1000 + tick) ∧
  (∀ (s : State) (b : Byte) (rest : List TxAnswer) (t : Nat), s.rst = [] → s.busy = true →
    s.prog[s.seq]? = some (.tx b) → s.answers = .ok :: rest →
    s.prog[s.seq + 1]? = some (.wait t) →
    ∃ u, step s = .next u ∧ u.busy = true ∧ u.prog = s.prog ∧ u.seq = s.seq + 1 ∧
      u.tickNs = s.tickNs ∧ u.timer = ticksOf s.tickNs t) ∧
  (∀ (s : State) (t : Nat), s.rst = [] → s.busy = true → s.prog[s.seq]? = some (.wait t) →
    s.timer = ticksOf s.tickNs t →
    let n := ticksOf s.tickNs t
    (∀ j < max n 1, runSteps j s = .next { s with timer := n - j }) ∧
    ∃ u, runSteps (max n 1) s = .next u ∧ u.prog = s.prog ∧ u.seq = s.seq + 1 ∧
      u.tickNs = s.tickNs ∧ u.trace = s.trace ++ [.wait t] ∧
      u.timer = match s.prog[s.seq + 1]? with
        | some (.wait d) => ticksOf s.tickNs d
        | _ => 0)

/-- R37, R52, R53, R155: a presented byte is held, with everything else, until the transport answers; ok
records it, goes to the next micro-op and begins it, or ends the command with OK. That TXREG keeps the byte
while tx_valid is 0, and what SEQ holds after the command, are the model's choices (log 13, log 14). -/
def Obligations.TransportAnswerMovesTheWrite : Prop :=
  ∀ (s : State) (b : Byte) (rest : List TxAnswer), s.rst = [] → s.busy = true →
    s.prog[s.seq]? = some (.tx b) → s.txValid = true → s.txreg = b →
    (s.answers = [] → step s = .next s) ∧
    (s.answers = .notYet :: rest → step s = .next { s with answers := rest }) ∧
    (s.answers = .ok :: rest →
      (∀ d, s.prog[s.seq + 1]? = some (.wait d) → step s = .next
        { s with answers := rest, txValid := false, trace := s.trace ++ [.tx b], seq := s.seq + 1,
                 timer := ticksOf s.tickNs d }) ∧
      (∀ c, s.prog[s.seq + 1]? = some (.tx c) → step s = .next
        { s with answers := rest, txValid := true, txreg := c, trace := s.trace ++ [.tx b],
                 seq := s.seq + 1 }) ∧
      (s.prog[s.seq + 1]? = none → step s = .next
        { s with answers := rest, txValid := false, trace := s.trace ++ [.tx b], seq := s.seq + 1,
                 busy := false, rspValid := true, rspStatus := 0x00, rspValue := 0x00,
                 life := if s.cmdOp = 0x01 then .ready else s.life }))

/-- R156, R54, R282: a failing write is recorded, sets FAULT, ends the command with TRANSPORT_FAILURE,
leaves a CONSTRUCT without a connection, and changes nothing else: no micro-op after it is performed. That
TXREG keeps `b` with tx_valid 0 (log 13) and that SEQ stays at the failed micro-op (log 14) are the model's
choices: R37 and R22 give neither a value then. -/
def Obligations.FailingWriteAbortsTheCommand : Prop :=
  ∀ (s : State) (b : Byte) (rest : List TxAnswer), s.rst = [] → s.busy = true →
    s.prog[s.seq]? = some (.tx b) → s.txValid = true → s.txreg = b → s.answers = .fail :: rest →
    step s = .next
      { s with
        answers := rest
        trace := s.trace ++ [.txFail b]
        fault := true
        life := if s.cmdOp = 0x01 then .unconfigured else s.life
        busy := false
        txValid := false
        rspValid := true
        rspStatus := 0x01
        rspValue := 0x00 }

/-- R53, R330, U5: a transport that never answers leaves the engine as it is for ever; no number of steps
ends the command. -/
def Obligations.UnansweredWriteHangsForEver : Prop :=
  ∀ (s : State) (n : Nat), Hung s → s.rst = [] → runSteps n s = .next s

/-- R15, R270, R282, U5: no error of the spec stops the machine. That so every state has a next state, a
hang (log 7, log 21, DEDUCED) and a state that no run reaches (log 29, DESIGN CHOICE) among them, is the
model's reading. -/
def Obligations.EveryStateHasANextState : Prop :=
  ∀ s : State, ∃ t, step s = .next t

/-! ### Invariants and whole-machine rules -/

/-- R21 to R24, R26, R31, R36, R37, R135, R138, R285: the invariant is kept by every step. Its clause on the
command being taken (only while BUSY is 0, no response waits and the payload is not whole) is the model's
reading, log 5 and log 6 (DEDUCED); that no internal operation is issued concerns the model's lane (log 10,
DESIGN CHOICE); after a reset the masks of MODE and the length of PBUF hold of the values log 4 names
(DESIGN CHOICE: R40 gives none). -/
def Obligations.EveryStepKeepsTheInvariant : Prop :=
  ∀ s t : State, EngineInv s → step s = .next t → EngineInv t

/-- The state after reset meets the invariant (it does so through the values R40 gives; the named values of
log 4 meet the masks and the length of PBUF). -/
def Obligations.ResetMeetsTheInvariant : Prop := EngineInv State.reset

/-- R286, R24: LIFE changes only by reset, by the acceptance of a valid CONSTRUCT, by its completion and by
its failure. That SEQ stands at the end of PROG after the completion is the model's choice (log 14). -/
def Obligations.LifecycleChangesOnlyAsListed : Prop :=
  ∀ s t : State, EngineInv s → step s = .next t → t.life ≠ s.life →
    (s.rst.headD false = true ∧ t.life = .unconfigured) ∨
    (s.busy = false ∧ s.life ≠ .initialising ∧ t.life = .initialising ∧ t.busy = true ∧
      ∃ p ss u pm, s.turn = .command (.construct p ss) u ∧ validatePinMap p = some pm) ∨
    (s.life = .initialising ∧ t.life = .ready ∧ s.busy = true ∧ t.busy = false ∧
      t.rspValid = true ∧ t.rspStatus = 0x00 ∧ t.seq = t.prog.length) ∨
    (s.life = .initialising ∧ t.life = .unconfigured ∧ s.busy = true ∧ t.busy = false ∧
      t.rspValid = true ∧ t.rspStatus = 0x01 ∧ t.fault = true)

/-- R33, R283: FAULT is set only by a failing bus write and cleared only by reset or the acceptance of a
valid CONSTRUCT. -/
def Obligations.FaultIsSticky : Prop :=
  ∀ s t : State, step s = .next t →
    (s.fault = false → t.fault = true → s.busy = true ∧
      ∃ b rest, s.prog[s.seq]? = some (.tx b) ∧ s.answers = .fail :: rest) ∧
    (s.fault = true → t.fault = false → s.rst.headD false = true ∨
      ∃ p ss u pm, s.turn = .command (.construct p ss) u ∧ validatePinMap p = some pm)

/-- R25, R31, R32, R291: PM is written only by a valid CONSTRUCT, BL only by it and the backlight commands,
MODE only by it, SET_MODE, and the setters, each with the value it writes. The value a CONSTRUCT gives BL is
the spec's decision D12, in the configuration (log 25). An internal operation issued by itself (log 10) is
the model's own. -/
def Obligations.ConnectionRegistersHaveTheirWriters : Prop :=
  ∀ s t : State, step s = .next t → s.rst.headD false = false →
    (t.pm ≠ s.pm → ∃ p ss u, s.turn = .command (.construct p ss) u ∧ validatePinMap p = some t.pm) ∧
    (t.bl ≠ s.bl →
      (∃ p ss u, s.turn = .command (.construct p ss) u ∧ validatePinMap p = some t.pm ∧
        t.bl = s.cfg.blInit) ∨
      (∃ u, s.turn = .command .backlightOn u ∧ t.bl = true) ∨
      (∃ u, s.turn = .command .backlightOff u ∧ t.bl = false)) ∧
    (t.mode ≠ s.mode →
      (∃ p ss u, s.turn = .command (.construct p ss) u ∧ validatePinMap p = some t.pm ∧
        t.mode = applySetters ss ⟨0x02, 0x04, 0x08⟩) ∨
      (∃ ss u, s.turn = .command (.setMode ss) u ∧ t.mode = applySetters ss s.mode) ∨
      (∃ b x, s.issue = some (.setter b) ∧ Setter.ofCode b = some x ∧
        t.mode = Setter.apply x s.mode))

/-- R40, R274, U7: what PM, MODE and BL hold while no connection exists cannot be seen: a step from two
states that differ in them only ends in the same state, or in states that differ in them only. -/
def Obligations.UnwrittenRegistersAreNotObservable : Prop :=
  ∀ (s : State) (pm : PinMap) (m : Mode) (b : Bool),
    s.life = .unconfigured → s.busy = false → s.issue = none →
    ∃ t u, step s = .next t ∧ step { s with pm := pm, mode := m, bl := b } = .next u ∧
      (u = t ∨ u = { t with pm := pm, mode := m, bl := b })

/-- R9, R41: no step changes the configuration or the tick period. -/
def Obligations.ParametersNeverChange : Prop :=
  ∀ s t : State, step s = .next t → t.cfg = s.cfg ∧ t.tickNs = s.tickNs

/-- R14, R22, R54, R66, R155: a step adds at most one event to the trace, and it is the micro-op SEQ names,
performed or failed; a step of a running command that adds none leaves PROG and SEQ, so nothing is skipped,
repeated or reordered. What SEQ and PROG hold after the step that ended the command, by its last micro-op or
by a failure, is the model's choice (log 14): R22 gives them no meaning then. -/
def Obligations.TraceGrowsByTheCurrentMicroOp : Prop :=
  ∀ s t : State, EngineInv s → step s = .next t →
    (t.trace = s.trace ∧
      (s.busy = true → s.rst.headD false = false → t.prog = s.prog ∧ t.seq = s.seq)) ∨
    (s.busy = true ∧ s.rst.headD false = false ∧ t.prog = s.prog ∧ ∃ m, s.prog[s.seq]? = some m ∧
      ((t.trace = s.trace ++ [m.event] ∧ t.seq = s.seq + 1) ∨
       (∃ b, m = .tx b ∧ t.trace = s.trace ++ [.txFail b] ∧ t.seq = s.seq ∧ t.busy = false)))

/-- R82, R96, R135: from a state that meets the invariant, no byte that a step sends has the read/write bit
set, and its backlight bit is BL XOR POL. -/
def Obligations.SentBytesAreWriteFrames : Prop :=
  ∀ (s t : State) (b : Byte), EngineInv s → step s = .next t →
    t.trace = s.trace ++ [.tx b] ∨ t.trace = s.trace ++ [.txFail b] →
    b.getLsbD s.pm.rw.val = false ∧ b.getLsbD s.pm.bl.val = (s.bl ^^ s.pm.pol)

/-! ### Whole commands -/

/-- R155, R160, R225, R67, R53: from any point of a running command, if every remaining write is answered
ok, each after any number of looks without an answer (R53), the machine performs exactly the rest of PROG,
in order, and ends the command with OK; a CONSTRUCT is then READY; apart from TXREG, TIMER and the
transport port nothing else has changed. What SEQ holds after the command is the model's choice (log 14);
the byte TXREG keeps is left open (log 13). -/
def Obligations.AnsweredCommandPerformsItsProgram : Prop :=
  ∀ (s : State) (ds : List Nat) (rest : List TxAnswer), EngineInv s → s.busy = true → s.rst = [] →
    ds.length = (txBytes (s.prog.drop s.seq)).length → s.answers = okAfter ds ++ rest →
    ∃ n b, runSteps n s = .next
      { s with
        busy := false
        life := if s.cmdOp = 0x01 then .ready else s.life
        seq := s.prog.length
        timer := 0
        txreg := b
        txValid := false
        rspValid := true
        rspStatus := 0x00
        rspValue := 0x00
        answers := rest
        trace := s.trace ++ (s.prog.drop s.seq).map MicroOp.event }

/-- R156, R160, R271: from any point of a running command, if the first failing answer meets the write `b`,
every answer coming after any number of looks without one (R53), the machine performs exactly what stands
before `b`, records the failure, performs nothing after it, sets FAULT and ends with TRANSPORT_FAILURE.
That TXREG keeps `b` with tx_valid 0 (log 13) and that SEQ stays at the failed micro-op (log 14) are the
model's choices: R37 and R22 give neither a value then. -/
def Obligations.FirstFailureCutsTheProgram : Prop :=
  ∀ (s : State) (pre post : List MicroOp) (b : Byte) (ds : List Nat) (d : Nat) (rest : List TxAnswer),
    EngineInv s → s.busy = true → s.rst = [] →
    s.prog.drop s.seq = pre ++ .tx b :: post → ds.length = (txBytes pre).length →
    s.answers = okAfter ds ++ List.replicate d .notYet ++ .fail :: rest →
    ∃ n, runSteps n s = .next
      { s with
        busy := false
        fault := true
        life := if s.cmdOp = 0x01 then .unconfigured else s.life
        seq := s.seq + pre.length
        timer := 0
        txreg := b
        txValid := false
        rspValid := true
        rspStatus := 0x01
        rspValue := 0x00
        answers := rest
        trace := s.trace ++ pre.map MicroOp.event ++ [.txFail b] }

/-- R220, R225, R311: a valid CONSTRUCT whose 36 writes are all answered ok, each after any number of looks
without an answer (R53), ends READY, with the trace of the initialization, the given pin map, the overrides
merged onto DEFAULT, the backlight off and FAULT clear. BL and FAULT becoming 0 are the spec's decision D12
(log 25). -/
def Obligations.ConstructEndsReady : Prop :=
  ∀ (s : State) (w : Word) (ws : List Word) (bytes more : List Byte) (p : PinBytes)
    (ss : List Setter) (pm : PinMap) (ds : List Nat) (rest : List TxAnswer),
    EngineInv s → s.cfg = Config.spec → s.rst = [] → s.busy = false → s.rspValid = false →
    s.taking = none → s.words = w :: ws → s.payload = bytes ++ more → bytes.length = (nOf w).toNat →
    decode (.command w bytes) = .ok (.construct p ss) → validatePinMap p = some pm →
    ds.length = 36 → s.answers = okAfter ds ++ rest →
    ∃ n t, runSteps n s = .next t ∧
      t.life = .ready ∧ t.busy = false ∧ t.fault = false ∧ t.pm = pm ∧ t.bl = false ∧
      t.mode = applySetters ss ⟨0x02, 0x04, 0x08⟩ ∧
      t.rspValid = true ∧ t.rspStatus = 0x00 ∧ t.rspValue = 0x00 ∧
      t.words = ws ∧ t.payload = more ∧ t.answers = rest ∧
      t.trace = s.trace ++
        (initOps Config.spec pm false (applySetters ss ⟨0x02, 0x04, 0x08⟩)).map MicroOp.event

/-- R224: if the write after `ds.length` successful ones fails, every answer coming after any number of
looks without one (R53), a CONSTRUCT leaves no connection, whatever was before it; that many writes have
been performed and none follows. BL becoming 0 is the spec's decision D12 (log 25). -/
def Obligations.FailedConstructLeavesNoConnection : Prop :=
  ∀ (s : State) (w : Word) (ws : List Word) (bytes more : List Byte) (p : PinBytes)
    (ss : List Setter) (pm : PinMap) (ds : List Nat) (d : Nat) (rest : List TxAnswer),
    EngineInv s → s.cfg = Config.spec → s.rst = [] → s.busy = false → s.rspValid = false →
    s.taking = none → s.words = w :: ws → s.payload = bytes ++ more → bytes.length = (nOf w).toNat →
    decode (.command w bytes) = .ok (.construct p ss) → validatePinMap p = some pm →
    ds.length < 36 → s.answers = okAfter ds ++ List.replicate d .notYet ++ .fail :: rest →
    ∃ n t pre post b, runSteps n s = .next t ∧
      initOps Config.spec pm false (applySetters ss ⟨0x02, 0x04, 0x08⟩) = pre ++ .tx b :: post ∧
      (txBytes pre).length = ds.length ∧
      t.life = .unconfigured ∧ t.busy = false ∧ t.fault = true ∧ t.pm = pm ∧ t.bl = false ∧
      t.mode = applySetters ss ⟨0x02, 0x04, 0x08⟩ ∧
      t.rspValid = true ∧ t.rspStatus = 0x01 ∧ t.rspValue = 0x00 ∧
      t.words = ws ∧ t.payload = more ∧ t.answers = rest ∧
      t.trace = s.trace ++ pre.map MicroOp.event ++ [.txFail b]

/-! ### Outputs and pins -/

/-- R23, R24, R33, R39: the three status outputs as views of BUSY, LIFE and FAULT, the codes of LIFE, of
which 3 never occurs, and all three outputs low after reset. The numeric codes and the FAULT flag are the
spec's decision D19, the outputs its decision D1. -/
def Obligations.StatusOutputsShowBusyReadyAndFault : Prop :=
  (∀ s : State, s.stBusy = s.busy ∧ s.stFault = s.fault ∧ (s.stReady = true ↔ s.life.code = 2)) ∧
  Life.code .unconfigured = 0 ∧ Life.code .initialising = 1 ∧ Life.code .ready = 2 ∧
  (∀ l : Life, l.code ≠ 3) ∧
  State.reset.stBusy = false ∧ State.reset.stReady = false ∧ State.reset.stFault = false

/-- R23, R24, R33, R39: when an output moves. `st_busy` rises with the acceptance of a command and falls
with its response, `st_ready` rises with the OK of a CONSTRUCT and falls with the acceptance of a valid
one, `st_fault` rises with the response TRANSPORT_FAILURE and falls with the acceptance of a valid
CONSTRUCT; hardware reset lowers all three. -/
def Obligations.StatusOutputsMoveOnlyAsListed : Prop :=
  ∀ s t : State, EngineInv s → step s = .next t →
    let constructAccepted := ∃ p ss u pm,
      s.turn = .command (.construct p ss) u ∧ validatePinMap p = some pm
    (s.stBusy = false → t.stBusy = true → s.rspValid = false ∧ ∃ i u, s.turn = .command i u) ∧
    (s.stBusy = true → t.stBusy = false →
      s.rst.headD false = true ∨ (s.rspValid = false ∧ t.rspValid = true)) ∧
    (s.stReady = false → t.stReady = true → s.life.code = 1 ∧ s.stBusy = true ∧
      t.stBusy = false ∧ t.rspValid = true ∧ t.rspStatus = 0x00) ∧
    (s.stReady = true → t.stReady = false → s.rst.headD false = true ∨ constructAccepted) ∧
    (s.stFault = false → t.stFault = true → s.stBusy = true ∧ t.stBusy = false ∧
      t.rspValid = true ∧ t.rspStatus = 0x01) ∧
    (s.stFault = true → t.stFault = false → s.rst.headD false = true ∨ constructAccepted) ∧
    (s.rst.headD false = true → t.stBusy = false ∧ t.stReady = false ∧ t.stFault = false)

/-- R38 (a), R52, R60, R156: the level last written on the expander's pins, read from the trace, changes
only when the transport answers ok to a presented byte, and then all of it is that byte; a wait, a failing
write and every other step leave it. After reset nothing has been written. That the pins are a reading of
the trace, with no level before the first write, is the model's choice (log 18). A reset that withdraws a
presented byte is left out: what the transport does with that byte is open (log 17). -/
def Obligations.PinsHoldTheLastSuccessfulWrite : Prop :=
  pinsOf State.reset.trace = none ∧
  ∀ s t : State, EngineInv s → (s.rst.headD false = true → s.txValid = false) → step s = .next t →
    pinsOf t.trace =
      match s.txPort, s.answers with
      | some b, .ok :: _ => some b
      | _, _ => pinsOf s.trace

/-- R328, R150, R156: when the closing write (c) of a strobe fails, or hardware reset falls between its
writes (b) and (c), the pins keep the frame with the enable bit high; the first byte a CONSTRUCT writes is a
base frame with enable low. That the pins are a reading of the trace is log 18. -/
def Obligations.CutStrobeLeavesEnableHigh : Prop :=
  (∀ (s : State) (rs : Bool) (n : Nibble) (post : List MicroOp) (d₁ d₂ d₃ : Nat)
      (rest : List TxAnswer),
    EngineInv s → s.busy = true → s.rst = [] →
    s.prog.drop s.seq = nibbleOps Config.spec s.pm s.bl rs n ++ post →
    let high := encodeFrame s.pm s.bl rs n ||| bit s.pm.en
    high.getLsbD s.pm.en.val = true ∧
    (s.answers = okAfter [d₁, d₂] ++ List.replicate d₃ .notYet ++ .fail :: rest →
      ∃ k u, runSteps k s = .next u ∧
      u.busy = false ∧ u.fault = true ∧ u.rspStatus = 0x01 ∧ pinsOf u.trace = some high) ∧
    (s.answers = okAfter [d₁, d₂] ++ rest → ∃ k u v, runSteps k s = .next u ∧
      u.seq = s.seq + 4 ∧ u.prog[u.seq]? = some (.wait 200) ∧ u.txValid = false ∧
      step { u with rst := [true] } = .next v ∧ v.busy = false ∧ pinsOf v.trace = some high)) ∧
  (∀ (pm : PinMap) (bl : Bool) (m : Mode), pm.Valid →
    ∃ more, txBytes (initOps Config.spec pm bl m) = encodeFrame pm bl false 0x3 :: more ∧
      (encodeFrame pm bl false 0x3).getLsbD pm.en.val = false)

/-! ### The host port -/

/-- R84: a word is taken exactly in a step with `cmd_ready` and a payload byte exactly in a step with
`pl_ready`, never both; `cmd_ready` is raised only when BUSY is 0. When the two are raised beyond that is
log 5 and log 6 (DEDUCED); that a listed word or byte counts as presented is log 16 (DESIGN CHOICE); an
internal operation issued by itself (log 10) is left out. -/
def Obligations.HandshakesDecideWhatIsTaken : Prop :=
  ∀ s : State, s.issue = none →
    (s.cmdReady = true → s.busy = false ∧ s.plReady = false) ∧
    (s.plReady = true → s.busy = false ∧ s.taking ≠ none) ∧
    ∃ t, step s = .next t ∧
      t.words = (if s.cmdReady then s.words.tail else s.words) ∧
      t.payload = (if s.plReady then s.payload.tail else s.payload)

/-- R84, R87: an idle engine takes the word and then exactly the `N` payload bytes it announces, in order
and whether or not the word is legal; until the last of them nothing but the command being taken changes,
and with it a legal command is accepted. That each transfer is one step and that BUSY and the latches are
untouched until the last is log 6; that the host presents each byte without a pause is how the lists show it
(log 16). -/
def Obligations.CommandIsTakenTransferByTransfer : Prop :=
  ∀ (s : State) (w : Word) (ws : List Word) (p rest : List Byte),
    s.rst = [] → s.busy = false → s.rspValid = false → s.taking = none → s.issue = none →
    s.words = w :: ws → s.payload = p ++ rest → p.length = (nOf w).toNat →
    (∀ j < p.length, runSteps (j + 1) s =
      .next { s with words := ws, payload := p.drop j ++ rest, taking := some ⟨w, p.take j⟩ }) ∧
    (∀ i, decode (.command w p) = .ok i → runSteps (p.length + 1) s =
      exec i
        { s with
          words := ws
          payload := rest
          cmdOp := opOf w
          cmdA := aOf w
          cmdB := bOf w
          cmdN := nOf w
          pbuf := p
          cmdHeld := true
          busy := true })
end

