-- ==== Sys2Proof/Laws/Decode.lean ====
section
/-!
SUPPORT. The fields of a command word, and the setter codes, read back.
-/

namespace Sys2Proof

/-! ### Command word fields (R85) -/

@[simp] theorem opOf_commandWord (op a b n : Byte) : opOf (commandWord op a b n) = op := by
  apply BitVec.eq_of_getLsbD_eq
  intro i hi
  interval_cases i <;> simp [opOf, commandWord]

@[simp] theorem aOf_commandWord (op a b n : Byte) : aOf (commandWord op a b n) = a := by
  apply BitVec.eq_of_getLsbD_eq
  intro i hi
  interval_cases i <;> simp [aOf, commandWord]

@[simp] theorem bOf_commandWord (op a b n : Byte) : bOf (commandWord op a b n) = b := by
  apply BitVec.eq_of_getLsbD_eq
  intro i hi
  interval_cases i <;> simp [bOf, commandWord]

@[simp] theorem nOf_commandWord (op a b n : Byte) : nOf (commandWord op a b n) = n := by
  apply BitVec.eq_of_getLsbD_eq
  intro i hi
  interval_cases i <;> simp [nOf, commandWord]

/-- The four fields make up the word. -/
theorem commandWord_fields (w : Word) : commandWord (opOf w) (aOf w) (bOf w) (nOf w) = w := by
  apply BitVec.eq_of_getLsbD_eq
  intro i hi
  interval_cases i <;> simp [commandWord, opOf, aOf, bOf, nOf]

theorem commandWord_and_opcode (op a b n : Byte) :
    commandWord op a b n &&& 0xFF000000 = commandWord op 0 0 0 := by
  apply BitVec.eq_of_getLsbD_eq
  intro i hi
  interval_cases i <;> simp [commandWord]

theorem commandWord_and_opcode_length (op a b n : Byte) :
    commandWord op a b n &&& 0xFF0000FF = commandWord op 0 0 n := by
  apply BitVec.eq_of_getLsbD_eq
  intro i hi
  interval_cases i <;> simp [commandWord]

theorem commandWord_toNat (op n : Byte) :
    (commandWord op 0 0 n).toNat = op.toNat * 2 ^ 24 + n.toNat := by
  have ho := op.isLt
  have hn := n.isLt
  simp only [commandWord, BitVec.toNat_or, BitVec.toNat_shiftLeft, BitVec.toNat_setWidth]
  rw [show (0 : Byte).toNat = 0 from rfl]
  simp only [Nat.zero_mod, Nat.zero_shiftLeft, Nat.or_zero]
  rw [Nat.shiftLeft_eq, Nat.mod_eq_of_lt (a := op.toNat) (by omega),
    Nat.mod_eq_of_lt (a := n.toNat) (by omega), Nat.mod_eq_of_lt (by omega), Nat.mul_comm,
    ← Nat.two_pow_add_eq_or_of_lt (by omega)]

/-! ### Setter codes (R92) -/

@[simp] theorem ofCode_code (x : Setter) : Setter.ofCode x.code = some x := by
  cases x <;> rfl

/-- A byte is a setter code exactly below 0x10. -/
theorem ofCode_isSome (b : Byte) : (Setter.ofCode b).isSome = decide (b.toNat < 16) := by
  revert b; decide

/-- A setter's code is the byte it was read from. -/
theorem code_of_ofCode (b : Byte) (x : Setter) : Setter.ofCode b = some x → x.code = b := by
  revert b x
  have : ∀ b : Byte, (Setter.ofCode b).all (fun x => decide (x.code = b)) = true := by decide
  intro b x h
  have hb := this b
  rw [h] at hb
  simpa using hb

/-- A list of setter codes reads back as the setters. -/
@[simp] theorem settersOf_codes (xs : List Setter) : settersOf (xs.map Setter.code) = .ok xs := by
  induction xs with
  | nil => rfl
  | cons x xs ih => simp [settersOf, ih]

/-- Setters are read from their own codes only. -/
theorem settersOf_eq_ok {bs : List Byte} {xs : List Setter} (h : settersOf bs = .ok xs) :
    bs = xs.map Setter.code := by
  induction bs generalizing xs with
  | nil => simp [settersOf] at h; simp [← h]
  | cons b bs ih =>
    simp only [settersOf] at h
    split at h
    · cases h
    · rename_i x hx
      split at h
      · cases h
      · rename_i ys hys
        cases h
        simp [ih hys, code_of_ofCode b x hx]

end Sys2Proof
end

