-- ==== Sys2Proof/Laws/State.lean ====
section
/-!
SUPPORT. One lemma per field and shared operation of the state. The operations that are plain record
updates have theirs from @[simps] at the definition; here stand those of the operations that branch.
-/

namespace Sys2Proof.Machine

open Sys2Proof

/-! ### State.enter: what beginning a micro-op, or ending the command, leaves alone -/

@[simp] theorem enter_fault (s : State) : s.enter.fault = s.fault := by
  unfold State.enter; split <;> rfl
@[simp] theorem enter_pm (s : State) : s.enter.pm = s.pm := by
  unfold State.enter; split <;> rfl
@[simp] theorem enter_mode (s : State) : s.enter.mode = s.mode := by
  unfold State.enter; split <;> rfl
@[simp] theorem enter_bl (s : State) : s.enter.bl = s.bl := by
  unfold State.enter; split <;> rfl
@[simp] theorem enter_connHeld (s : State) : s.enter.connHeld = s.connHeld := by
  unfold State.enter; split <;> rfl
@[simp] theorem enter_cmdOp (s : State) : s.enter.cmdOp = s.cmdOp := by
  unfold State.enter; split <;> rfl
@[simp] theorem enter_cmdA (s : State) : s.enter.cmdA = s.cmdA := by
  unfold State.enter; split <;> rfl
@[simp] theorem enter_cmdB (s : State) : s.enter.cmdB = s.cmdB := by
  unfold State.enter; split <;> rfl
@[simp] theorem enter_cmdN (s : State) : s.enter.cmdN = s.cmdN := by
  unfold State.enter; split <;> rfl
@[simp] theorem enter_pbuf (s : State) : s.enter.pbuf = s.pbuf := by
  unfold State.enter; split <;> rfl
@[simp] theorem enter_cmdHeld (s : State) : s.enter.cmdHeld = s.cmdHeld := by
  unfold State.enter; split <;> rfl
@[simp] theorem enter_prog (s : State) : s.enter.prog = s.prog := by
  unfold State.enter; split <;> rfl
@[simp] theorem enter_seq (s : State) : s.enter.seq = s.seq := by
  unfold State.enter; split <;> rfl
@[simp] theorem enter_taking (s : State) : s.enter.taking = s.taking := by
  unfold State.enter; split <;> rfl
@[simp] theorem enter_cfg (s : State) : s.enter.cfg = s.cfg := by
  unfold State.enter; split <;> rfl
@[simp] theorem enter_tickNs (s : State) : s.enter.tickNs = s.tickNs := by
  unfold State.enter; split <;> rfl
@[simp] theorem enter_rst (s : State) : s.enter.rst = s.rst := by
  unfold State.enter; split <;> rfl
@[simp] theorem enter_words (s : State) : s.enter.words = s.words := by
  unfold State.enter; split <;> rfl
@[simp] theorem enter_payload (s : State) : s.enter.payload = s.payload := by
  unfold State.enter; split <;> rfl
@[simp] theorem enter_answers (s : State) : s.enter.answers = s.answers := by
  unfold State.enter; split <;> rfl
@[simp] theorem enter_rspReady (s : State) : s.enter.rspReady = s.rspReady := by
  unfold State.enter; split <;> rfl
@[simp] theorem enter_issue (s : State) : s.enter.issue = s.issue := by
  unfold State.enter; split <;> rfl
@[simp] theorem enter_trace (s : State) : s.enter.trace = s.trace := by
  unfold State.enter; split <;> rfl
@[simp] theorem enter_responses (s : State) : s.enter.responses = s.responses := by
  unfold State.enter; split <;> rfl

/-! ### State.launch -/

@[simp] theorem launch_fault (s : State) (p : List MicroOp) : (s.launch p).fault = s.fault := by
  simp [State.launch]
@[simp] theorem launch_pm (s : State) (p : List MicroOp) : (s.launch p).pm = s.pm := by
  simp [State.launch]
@[simp] theorem launch_mode (s : State) (p : List MicroOp) : (s.launch p).mode = s.mode := by
  simp [State.launch]
@[simp] theorem launch_bl (s : State) (p : List MicroOp) : (s.launch p).bl = s.bl := by
  simp [State.launch]
@[simp] theorem launch_connHeld (s : State) (p : List MicroOp) : (s.launch p).connHeld = s.connHeld := by
  simp [State.launch]
@[simp] theorem launch_cmdOp (s : State) (p : List MicroOp) : (s.launch p).cmdOp = s.cmdOp := by
  simp [State.launch]
@[simp] theorem launch_cmdA (s : State) (p : List MicroOp) : (s.launch p).cmdA = s.cmdA := by
  simp [State.launch]
@[simp] theorem launch_cmdB (s : State) (p : List MicroOp) : (s.launch p).cmdB = s.cmdB := by
  simp [State.launch]
@[simp] theorem launch_cmdN (s : State) (p : List MicroOp) : (s.launch p).cmdN = s.cmdN := by
  simp [State.launch]
@[simp] theorem launch_pbuf (s : State) (p : List MicroOp) : (s.launch p).pbuf = s.pbuf := by
  simp [State.launch]
@[simp] theorem launch_cmdHeld (s : State) (p : List MicroOp) : (s.launch p).cmdHeld = s.cmdHeld := by
  simp [State.launch]
@[simp] theorem launch_taking (s : State) (p : List MicroOp) : (s.launch p).taking = s.taking := by
  simp [State.launch]
@[simp] theorem launch_cfg (s : State) (p : List MicroOp) : (s.launch p).cfg = s.cfg := by
  simp [State.launch]
@[simp] theorem launch_tickNs (s : State) (p : List MicroOp) : (s.launch p).tickNs = s.tickNs := by
  simp [State.launch]
@[simp] theorem launch_rst (s : State) (p : List MicroOp) : (s.launch p).rst = s.rst := by
  simp [State.launch]
@[simp] theorem launch_words (s : State) (p : List MicroOp) : (s.launch p).words = s.words := by
  simp [State.launch]
@[simp] theorem launch_payload (s : State) (p : List MicroOp) : (s.launch p).payload = s.payload := by
  simp [State.launch]
@[simp] theorem launch_answers (s : State) (p : List MicroOp) : (s.launch p).answers = s.answers := by
  simp [State.launch]
@[simp] theorem launch_rspReady (s : State) (p : List MicroOp) : (s.launch p).rspReady = s.rspReady := by
  simp [State.launch]
@[simp] theorem launch_issue (s : State) (p : List MicroOp) : (s.launch p).issue = s.issue := by
  simp [State.launch]
@[simp] theorem launch_trace (s : State) (p : List MicroOp) : (s.launch p).trace = s.trace := by
  simp [State.launch]
@[simp] theorem launch_responses (s : State) (p : List MicroOp) : (s.launch p).responses = s.responses := by
  simp [State.launch]
@[simp] theorem launch_prog (s : State) (p : List MicroOp) : (s.launch p).prog = p := by
  simp [State.launch]
@[simp] theorem launch_seq (s : State) (p : List MicroOp) : (s.launch p).seq = 0 := by
  simp [State.launch]

/-! ### State.runMicro: the registers and inputs a running command's micro-ops leave alone -/

@[simp] theorem runMicro_pm (s : State) : s.runMicro.pm = s.pm := by
  unfold State.runMicro State.tick State.poll
  split
  · rfl
  · split <;> simp
  · split <;> simp
@[simp] theorem runMicro_mode (s : State) : s.runMicro.mode = s.mode := by
  unfold State.runMicro State.tick State.poll
  split
  · rfl
  · split <;> simp
  · split <;> simp
@[simp] theorem runMicro_bl (s : State) : s.runMicro.bl = s.bl := by
  unfold State.runMicro State.tick State.poll
  split
  · rfl
  · split <;> simp
  · split <;> simp
@[simp] theorem runMicro_connHeld (s : State) : s.runMicro.connHeld = s.connHeld := by
  unfold State.runMicro State.tick State.poll
  split
  · rfl
  · split <;> simp
  · split <;> simp
@[simp] theorem runMicro_cmdOp (s : State) : s.runMicro.cmdOp = s.cmdOp := by
  unfold State.runMicro State.tick State.poll
  split
  · rfl
  · split <;> simp
  · split <;> simp
@[simp] theorem runMicro_cmdA (s : State) : s.runMicro.cmdA = s.cmdA := by
  unfold State.runMicro State.tick State.poll
  split
  · rfl
  · split <;> simp
  · split <;> simp
@[simp] theorem runMicro_cmdB (s : State) : s.runMicro.cmdB = s.cmdB := by
  unfold State.runMicro State.tick State.poll
  split
  · rfl
  · split <;> simp
  · split <;> simp
@[simp] theorem runMicro_cmdN (s : State) : s.runMicro.cmdN = s.cmdN := by
  unfold State.runMicro State.tick State.poll
  split
  · rfl
  · split <;> simp
  · split <;> simp
@[simp] theorem runMicro_pbuf (s : State) : s.runMicro.pbuf = s.pbuf := by
  unfold State.runMicro State.tick State.poll
  split
  · rfl
  · split <;> simp
  · split <;> simp
@[simp] theorem runMicro_cmdHeld (s : State) : s.runMicro.cmdHeld = s.cmdHeld := by
  unfold State.runMicro State.tick State.poll
  split
  · rfl
  · split <;> simp
  · split <;> simp
@[simp] theorem runMicro_prog (s : State) : s.runMicro.prog = s.prog := by
  unfold State.runMicro State.tick State.poll
  split
  · rfl
  · split <;> simp
  · split <;> simp
@[simp] theorem runMicro_taking (s : State) : s.runMicro.taking = s.taking := by
  unfold State.runMicro State.tick State.poll
  split
  · rfl
  · split <;> simp
  · split <;> simp
@[simp] theorem runMicro_cfg (s : State) : s.runMicro.cfg = s.cfg := by
  unfold State.runMicro State.tick State.poll
  split
  · rfl
  · split <;> simp
  · split <;> simp
@[simp] theorem runMicro_tickNs (s : State) : s.runMicro.tickNs = s.tickNs := by
  unfold State.runMicro State.tick State.poll
  split
  · rfl
  · split <;> simp
  · split <;> simp
@[simp] theorem runMicro_rst (s : State) : s.runMicro.rst = s.rst := by
  unfold State.runMicro State.tick State.poll
  split
  · rfl
  · split <;> simp
  · split <;> simp
@[simp] theorem runMicro_words (s : State) : s.runMicro.words = s.words := by
  unfold State.runMicro State.tick State.poll
  split
  · rfl
  · split <;> simp
  · split <;> simp
@[simp] theorem runMicro_payload (s : State) : s.runMicro.payload = s.payload := by
  unfold State.runMicro State.tick State.poll
  split
  · rfl
  · split <;> simp
  · split <;> simp
@[simp] theorem runMicro_rspReady (s : State) : s.runMicro.rspReady = s.rspReady := by
  unfold State.runMicro State.tick State.poll
  split
  · rfl
  · split <;> simp
  · split <;> simp
@[simp] theorem runMicro_issue (s : State) : s.runMicro.issue = s.issue := by
  unfold State.runMicro State.tick State.poll
  split
  · rfl
  · split <;> simp
  · split <;> simp
@[simp] theorem runMicro_responses (s : State) : s.runMicro.responses = s.responses := by
  unfold State.runMicro State.tick State.poll
  split
  · rfl
  · split <;> simp
  · split <;> simp

end Sys2Proof.Machine
end

