-- ==== Sys2Proof/Laws/Ops.lean ====
section
/-!
SUPPORT. One specification lemma per shared operation: everything the operation can do.
-/

namespace Sys2Proof.Machine

open Sys2Proof

/-! ### Beginning a micro-op -/

/-- Everything `enter` can do: end the command, start a delay, or present a byte. -/
theorem enter_cases (s : State) :
    (s.prog[s.seq]? = none ∧ s.enter = s.complete 0x00) ∨
    (∃ t, s.prog[s.seq]? = some (.wait t) ∧ s.enter = s.startWait t) ∨
    (∃ b, s.prog[s.seq]? = some (.tx b) ∧ s.enter = s.present b) := by
  unfold State.enter
  split
  · exact .inl ⟨‹_›, rfl⟩
  · exact .inr (.inl ⟨_, ‹_›, rfl⟩)
  · exact .inr (.inr ⟨_, ‹_›, rfl⟩)

theorem enter_at_wait {s : State} {t : Nat} (h : s.prog[s.seq]? = some (.wait t)) :
    s.enter = s.startWait t := by
  unfold State.enter; rw [h]

theorem enter_at_tx {s : State} {b : Byte} (h : s.prog[s.seq]? = some (.tx b)) :
    s.enter = s.present b := by
  unfold State.enter; rw [h]

theorem enter_at_end {s : State} (h : s.prog[s.seq]? = none) : s.enter = s.complete 0x00 := by
  unfold State.enter; rw [h]

/-- A list that begins with a delay starts its command with that delay. -/
theorem launch_wait (s : State) (t : Nat) (p : List MicroOp) :
    s.launch (.wait t :: p) = (s.load (.wait t :: p)).startWait t :=
  enter_at_wait (s := s.load (.wait t :: p)) rfl

/-- A byte's micro-op list begins with the settle delay. -/
theorem byteOps_eq_cons (cfg : Config) (pm : PinMap) (bl rs : Bool) (v : Byte) :
    ∃ p, byteOps cfg pm bl rs v = .wait cfg.tSettle :: p := ⟨_, rfl⟩

/-- A command whose list begins with a byte is begun with the settle delay. -/
theorem launch_byte (s : State) (cfg : Config) (pm : PinMap) (bl rs : Bool) (v : Byte)
    (rest : List MicroOp) :
    s.launch (byteOps cfg pm bl rs v ++ rest) =
      (s.load (byteOps cfg pm bl rs v ++ rest)).startWait cfg.tSettle :=
  launch_wait s cfg.tSettle _

/-! ### One micro-op -/

/-- Everything a step of a running command can do. -/
theorem runMicro_cases (s : State) :
    (s.prog[s.seq]? = none ∧ s.runMicro = s.complete 0x00) ∨
    (∃ t, s.prog[s.seq]? = some (.wait t) ∧ 1 < s.timer ∧
      s.runMicro = { s with timer := s.timer - 1 }) ∨
    (∃ t, s.prog[s.seq]? = some (.wait t) ∧ s.timer ≤ 1 ∧
      s.runMicro = (({ s with timer := 0 } : State).record (.wait t)).enter) ∨
    (∃ b, s.prog[s.seq]? = some (.tx b) ∧ s.answers = [] ∧ s.runMicro = s) ∨
    (∃ b rest, s.prog[s.seq]? = some (.tx b) ∧ s.answers = .notYet :: rest ∧
      s.runMicro = { s with answers := rest }) ∨
    (∃ b rest, s.prog[s.seq]? = some (.tx b) ∧ s.answers = .ok :: rest ∧
      s.runMicro =
        (({ s with answers := rest, txValid := false } : State).record (.tx s.txreg)).enter) ∨
    (∃ b rest, s.prog[s.seq]? = some (.tx b) ∧ s.answers = .fail :: rest ∧
      s.runMicro = ({ s with answers := rest } : State).abort) := by
  unfold State.runMicro
  split
  · exact .inl ⟨‹_›, rfl⟩
  · rename_i t h
    by_cases ht : s.timer ≤ 1
    · exact .inr (.inr (.inl ⟨t, h, ht, by simp [State.tick, ht]⟩))
    · exact .inr (.inl ⟨t, h, by omega, by simp [State.tick, ht]⟩)
  · rename_i b h
    unfold State.poll
    split
    · exact .inr (.inr (.inr (.inl ⟨b, h, ‹_›, rfl⟩)))
    · exact .inr (.inr (.inr (.inr (.inl ⟨b, _, h, ‹_›, rfl⟩))))
    · exact .inr (.inr (.inr (.inr (.inr (.inl ⟨b, _, h, ‹_›, rfl⟩)))))
    · exact .inr (.inr (.inr (.inr (.inr (.inr ⟨b, _, h, ‹_›, rfl⟩)))))

/-! ### The lifecycle check -/

theorem whenReady_ready {s : State} (h : s.life = .ready)
    (k : State → Host.Outcome State Fault Refusal) : s.whenReady k = k s := by
  simp [State.whenReady, h]

theorem whenReady_notReady {s : State} (h : s.life ≠ .ready)
    (k : State → Host.Outcome State Fault Refusal) :
    s.whenReady k = .next (s.raise .notReady) := by
  simp [State.whenReady, h]

/-! ### Taking the next thing -/

/-- Everything the coming step can be. -/
theorem turn_cases (s : State) :
    (s.resetAsserted = true ∧ s.turn = .own s.popReset.hardReset) ∨
    (s.resetAsserted = false ∧ s.busy = true ∧ s.turn = .own s.popReset.runMicro) ∨
    (s.resetAsserted = false ∧ s.busy = false ∧ s.rspValid = true ∧
      s.turn = .own s.popReset.offer) ∨
    (s.resetAsserted = false ∧ s.busy = false ∧ s.rspValid = false ∧
      s.turn = s.popReset.takeNext) := by
  unfold State.turn
  cases s.resetAsserted <;> cases s.busy <;> cases s.rspValid <;> simp

/-- Everything that can follow a transfer: the payload is not whole yet, or the command is accepted and is
legal or not. -/
theorem gather_cases (s : State) (w : Word) (p : List Byte) :
    (p.length < (nOf w).toNat ∧ s.gather w p = .own { s with taking := some ⟨w, p⟩ }) ∨
    (∃ i, (nOf w).toNat ≤ p.length ∧ decodeCommand w p = .ok i ∧
      s.gather w p = .command i (s.accept w p)) ∨
    (∃ r, (nOf w).toNat ≤ p.length ∧ decodeCommand w p = .error r ∧
      s.gather w p = .own ((s.accept w p).raise .invalidCommand)) := by
  unfold State.gather
  split
  · exact .inl ⟨‹_›, rfl⟩
  · split
    · exact .inr (.inl ⟨_, by omega, ‹_›, rfl⟩)
    · exact .inr (.inr ⟨_, by omega, ‹_›, rfl⟩)

theorem gather_more (s : State) {w : Word} {p : List Byte} (h : p.length < (nOf w).toNat) :
    s.gather w p = .own { s with taking := some ⟨w, p⟩ } := by
  unfold State.gather; rw [if_pos h]

theorem gather_legal (s : State) {w : Word} {p : List Byte} {i : Instr}
    (h : decode (.command w p) = .ok i) : s.gather w p = .command i (s.accept w p) := by
  have hd : decodeCommand w p = .ok i := h
  have hl : p.length = (nOf w).toNat := by
    by_contra hn
    unfold decodeCommand at hd
    rw [if_pos hn] at hd
    cases hd
  unfold State.gather
  rw [if_neg (by omega), hd]

theorem gather_illegal (s : State) {w : Word} {p : List Byte} {r : Reject}
    (hl : p.length = (nOf w).toNat) (h : decode (.command w p) = .error r) :
    s.gather w p = .own ((s.accept w p).raise .invalidCommand) := by
  have hd : decodeCommand w p = .error r := h
  unfold State.gather
  rw [if_neg (by omega), hd]

/-- Everything an idle engine can do. -/
theorem takeNext_cases (s : State) :
    (∃ k, s.taking = some k ∧ s.payload = [] ∧ s.takeNext = .own s) ∨
    (∃ k b bs, s.taking = some k ∧ s.payload = b :: bs ∧
      s.takeNext = ({ s with payload := bs } : State).gather k.word (k.bytes ++ [b])) ∨
    (∃ x i, s.taking = none ∧ s.issue = some x ∧ decodeInternal x = .ok i ∧
      s.takeNext = .issued i s.beginIssue) ∨
    (∃ x r, s.taking = none ∧ s.issue = some x ∧ decodeInternal x = .error r ∧
      s.takeNext = .own (s.beginIssue.raise .invalidCommand)) ∨
    (s.taking = none ∧ s.issue = none ∧ s.words = [] ∧ s.takeNext = .own s) ∨
    (∃ w ws, s.taking = none ∧ s.issue = none ∧ s.words = w :: ws ∧
      s.takeNext = ({ s with words := ws } : State).gather w []) := by
  unfold State.takeNext
  split
  · rename_i k hk
    unfold State.takeByte
    split
    · exact .inl ⟨k, hk, ‹_›, rfl⟩
    · exact .inr (.inl ⟨k, _, _, hk, ‹_›, rfl⟩)
  · rename_i hk
    split
    · rename_i x hx
      unfold State.takeIssue
      split
      · exact .inr (.inr (.inl ⟨x, _, hk, hx, ‹_›, rfl⟩))
      · exact .inr (.inr (.inr (.inl ⟨x, _, hk, hx, ‹_›, rfl⟩)))
    · rename_i hx
      unfold State.takeWord
      split
      · exact .inr (.inr (.inr (.inr (.inl ⟨hk, hx, ‹_›, rfl⟩))))
      · exact .inr (.inr (.inr (.inr (.inr ⟨_, _, hk, hx, ‹_›, rfl⟩))))

/-! ### The encoder of frames -/

/-- Bit `q` of a placed bit. -/
theorem getLsbD_place (b : Bool) (p q : Pos) : (place b p).getLsbD q.val = (b && decide (q = p)) := by
  revert b p q; decide

/-- Bit `q` of the enable mask. -/
theorem getLsbD_bit (p q : Pos) : (bit p).getLsbD q.val = decide (q = p) := by
  revert p q; decide

/-- The two nibbles of a value give it back. -/
theorem nibbles_append (v : Byte) : highNibble v ++ lowNibble v = v := by
  revert v; decide

/-! ### Readings of a micro-op list -/

@[simp] theorem txBytes_append (p q : List MicroOp) : txBytes (p ++ q) = txBytes p ++ txBytes q := by
  induction p with
  | nil => rfl
  | cons m p ih => cases m <;> simp [txBytes, ih]

@[simp] theorem waitSum_append (p q : List MicroOp) : waitSum (p ++ q) = waitSum p + waitSum q := by
  induction p with
  | nil => simp [waitSum]
  | cons m p ih => cases m <;> simp [waitSum, ih, Nat.add_assoc]

/-! What one more event does to the level on the pins. -/

@[simp] theorem pinsOf_append_tx (l : List Event) (b : Byte) : pinsOf (l ++ [.tx b]) = some b := by
  induction l with
  | nil => rfl
  | cons e l ih => simp [pinsOf, ih]

@[simp] theorem pinsOf_append_wait (l : List Event) (t : Nat) : pinsOf (l ++ [.wait t]) = pinsOf l := by
  induction l with
  | nil => rfl
  | cons e l ih => simp [pinsOf, ih]

@[simp] theorem pinsOf_append_txFail (l : List Event) (b : Byte) :
    pinsOf (l ++ [.txFail b]) = pinsOf l := by
  induction l with
  | nil => rfl
  | cons e l ih => simp [pinsOf, ih]

@[simp] theorem applySetters_append (xs ys : List Setter) (m : Mode) :
    applySetters (xs ++ ys) m = applySetters ys (applySetters xs m) := by
  induction xs generalizing m with
  | nil => rfl
  | cons x xs ih => simp [applySetters, ih]

end Sys2Proof.Machine
end

