-- ==== Sys2Proof/Laws/Exec.lean ====
section
/-!
SUPPORT. What executing any instruction does and leaves alone, said once: it answers a next state, and it
touches no input, no parameter, no operand latch and no observation.
-/

namespace Sys2Proof.Machine

open Sys2Proof

/-- The fields no instruction writes: the latches, the host port, the parameters, the inputs and the
observation. -/
structure State.SameOutside (s t : State) : Prop where
  cmdOp : t.cmdOp = s.cmdOp
  cmdA : t.cmdA = s.cmdA
  cmdB : t.cmdB = s.cmdB
  cmdN : t.cmdN = s.cmdN
  pbuf : t.pbuf = s.pbuf
  cmdHeld : t.cmdHeld = s.cmdHeld
  taking : t.taking = s.taking
  cfg : t.cfg = s.cfg
  tickNs : t.tickNs = s.tickNs
  rst : t.rst = s.rst
  words : t.words = s.words
  payload : t.payload = s.payload
  answers : t.answers = s.answers
  rspReady : t.rspReady = s.rspReady
  issue : t.issue = s.issue
  trace : t.trace = s.trace
  responses : t.responses = s.responses

theorem sameOutside_launch (s : State) (p : List MicroOp) : s.SameOutside (s.launch p) := by
  constructor <;> simp

theorem sameOutside_respond (s : State) (st : Status) (v : Byte) : s.SameOutside (s.respond st v) := by
  constructor <;> rfl

theorem sameOutside_answer (s : State) (v : Byte) : s.SameOutside (s.answer v) := by
  constructor <;> rfl

/-- What is so of both branches of the lifecycle check is so of the command. -/
theorem whenReady_sameOutside (s : State) (k : State → Host.Outcome State Fault Refusal)
    (h : ∃ t, k s = .next t ∧ s.SameOutside t) : ∃ t, s.whenReady k = .next t ∧ s.SameOutside t := by
  by_cases hr : s.life = .ready
  · rw [whenReady_ready hr]; exact h
  · rw [whenReady_notReady hr]; exact ⟨_, rfl, sameOutside_respond s _ _⟩

/-- Every instruction answers a next state with the outside unchanged. -/
theorem exec_sameOutside (i : Instr) (s : State) : ∃ t, exec i s = .next t ∧ s.SameOutside t := by
  cases i
  case construct p ss =>
    simp only [exec, execConstruct]
    split
    · exact ⟨_, rfl, sameOutside_respond _ _ _⟩
    · exact ⟨_, rfl, by constructor <;> simp⟩
  case displayString line column text =>
    simp only [exec, execDisplayString]
    apply whenReady_sameOutside
    split
    · exact ⟨_, rfl, sameOutside_respond _ _ _⟩
    · exact ⟨_, rfl, sameOutside_launch _ _⟩
  case setMode ss =>
    simp only [exec, execSetMode]
    apply whenReady_sameOutside
    exact ⟨_, rfl, by constructor <;> simp⟩
  case backlightOn =>
    simp only [exec, execBacklightOn]
    apply whenReady_sameOutside
    exact ⟨_, rfl, by constructor <;> simp [State.sendInstr]⟩
  case backlightOff =>
    simp only [exec, execBacklightOff]
    apply whenReady_sameOutside
    exact ⟨_, rfl, by constructor <;> simp [State.sendInstr]⟩
  all_goals first
    | exact ⟨_, rfl, by constructor <;> rfl⟩
    | (simp only [exec, execWriteChar, execWriteInstruction, execClear, execSetCursorAddress,
         execHome, execShiftLeft, execShiftRight, execLoadCustomChars, State.sendInstr]
       apply whenReady_sameOutside
       exact ⟨_, rfl, sameOutside_launch _ _⟩)
    | (simp only [exec, execQEntryIncrement, execQShiftOn, execQDisplayOn, execQCursorOn,
         execQBlinkOn, execQBusWidth, execQLineCount]
       apply whenReady_sameOutside
       exact ⟨_, rfl, sameOutside_answer _ _⟩)

end Sys2Proof.Machine
end

