-- ==== Sys2Proof/Laws/Frame.lean ====
section
/-!
SUPPORT. Every byte a micro-op list of the engine writes is a bus byte of its pin map and backlight
(40_frame_encoder.md R135): one lemma per list, which the claims about sent bytes cite.
-/

namespace Sys2Proof.Machine

open Sys2Proof

theorem busByte_nibbleOps {cfg : Config} {pm : PinMap} {bl rs : Bool} {n : Nibble} {b : Byte}
    (h : MicroOp.tx b ∈ nibbleOps cfg pm bl rs n) : BusByte pm bl b := by
  simp only [nibbleOps, List.mem_cons, MicroOp.tx.injEq, reduceCtorEq, List.not_mem_nil, false_or,
    or_false] at h
  rcases h with rfl | rfl | rfl
  · exact ⟨rs, n, .inl rfl⟩
  · exact ⟨rs, n, .inr rfl⟩
  · exact ⟨rs, n, .inl rfl⟩

theorem busByte_byteOps {cfg : Config} {pm : PinMap} {bl rs : Bool} {v b : Byte}
    (h : MicroOp.tx b ∈ byteOps cfg pm bl rs v) : BusByte pm bl b := by
  simp only [byteOps, List.mem_append, List.mem_singleton, reduceCtorEq, or_false] at h
  exact h.elim busByte_nibbleOps busByte_nibbleOps

theorem busByte_dataListOps {cfg : Config} {pm : PinMap} {bl : Bool} {l : List Byte} {b : Byte}
    (h : MicroOp.tx b ∈ dataListOps cfg pm bl l) : BusByte pm bl b := by
  induction l with
  | nil => cases h
  | cons v rest ih => exact (List.mem_append.mp h).elim busByte_byteOps ih

theorem busByte_commitOps {cfg : Config} {pm : PinMap} {bl : Bool} {m : Mode} {b : Byte}
    (h : MicroOp.tx b ∈ commitOps cfg pm bl m) : BusByte pm bl b := by
  simp only [commitOps, instrOps, List.mem_append] at h
  rcases h with (h | h) | h <;> exact busByte_byteOps h

theorem busByte_initOps {cfg : Config} {pm : PinMap} {bl : Bool} {m : Mode} {b : Byte}
    (h : MicroOp.tx b ∈ initOps cfg pm bl m) : BusByte pm bl b := by
  simp only [initOps, instrOps, List.mem_append, List.mem_singleton, reduceCtorEq, or_false,
    false_or] at h
  rcases h with ((((h | h) | h) | h) | h) | h
  · exact busByte_nibbleOps h
  · exact busByte_nibbleOps h
  · exact busByte_nibbleOps h
  · exact busByte_nibbleOps h
  · exact busByte_byteOps h
  · exact busByte_commitOps h

end Sys2Proof.Machine
end

