-- ==== Sys2Proof/Laws/PerInstr.lean ====
section
/-!
SUPPORT. The per-instruction family TableRow: the code of a well-formed instruction belongs to the row
of opcode_table.json that carries its mnemonic (30_encoding.md R90, R92, R100 to R110).
-/

namespace Sys2Proof

/-- The opcode field alone decides a row whose mask is the opcode field (R85). -/
theorem commandWord_opcode (op a b n : Byte) :
    (commandWord op a b n).toNat &&& 0xFF000000 = op.toNat * 2 ^ 24 := by
  rw [show (0xFF000000 : Nat) = (0xFF000000 : Word).toNat from rfl, ← BitVec.toNat_and,
    commandWord_and_opcode, commandWord_toNat]
  simp

/-- Opcode and N decide a row whose mask is both (R85, R90). -/
theorem commandWord_opcode_length (op a b n : Byte) :
    (commandWord op a b n).toNat &&& 0xFF0000FF = op.toNat * 2 ^ 24 + n.toNat := by
  rw [show (0xFF0000FF : Nat) = (0xFF0000FF : Word).toNat from rfl, ← BitVec.toNat_and,
    commandWord_and_opcode_length, commandWord_toNat]

end Sys2Proof

namespace Sys2Proof.Laws

open Sys2Proof

/-- The code of a well-formed instruction belongs to the table row of its mnemonic. -/
def TableRow.Statement (i : Instr) : Prop :=
  i.WF → ∃ r ∈ opcodeTable, r.mnemonic = i.mnemonic ∧ r.holds (encode i) = true

/-- A row found at an index of the table. -/
theorem TableRow.at (i : Instr) (k : Nat) (r : TableRow) (hk : opcodeTable[k]? = some r)
    (hm : r.mnemonic = i.mnemonic) (hr : i.WF → r.holds (encode i) = true) : Statement i :=
  fun hwf => ⟨r, List.mem_of_getElem? hk, hm, hr hwf⟩

theorem TableRow.construct (p : PinBytes) (ss : List Setter) : Statement (.construct p ss) :=
  TableRow.at _ 0 _ rfl rfl fun _ => by
    simp [TableRow.holds, encode, commandCode, Code.tableBits, commandWord_opcode]

theorem TableRow.setMode (ss : List Setter) : Statement (.setMode ss) :=
  TableRow.at _ 1 _ rfl rfl fun _ => by
    simp [TableRow.holds, encode, commandCode, Code.tableBits, commandWord_opcode]

theorem TableRow.displayString (line column : Byte) (text : List Byte) : Statement (.displayString line column text) :=
  TableRow.at _ 2 _ rfl rfl fun _ => by
    simp [TableRow.holds, encode, commandCode, Code.tableBits, commandWord_opcode]

theorem TableRow.writeChar (b : Byte) : Statement (.writeChar b) :=
  TableRow.at _ 3 _ rfl rfl fun _ => by
    simp [TableRow.holds, encode, commandCode, Code.tableBits, commandWord_opcode_length]

theorem TableRow.writeInstruction (b : Byte) : Statement (.writeInstruction b) :=
  TableRow.at _ 4 _ rfl rfl fun _ => by
    simp [TableRow.holds, encode, commandCode, Code.tableBits, commandWord_opcode_length]

theorem TableRow.setCursorAddress (a : Byte) : Statement (.setCursorAddress a) :=
  TableRow.at _ 5 _ rfl rfl fun _ => by
    simp [TableRow.holds, encode, commandCode, Code.tableBits, commandWord_opcode_length]

theorem TableRow.clear : Statement (.clear) :=
  TableRow.at _ 6 _ rfl rfl fun _ => by decide

theorem TableRow.home : Statement (.home) :=
  TableRow.at _ 7 _ rfl rfl fun _ => by decide

theorem TableRow.shiftLeft : Statement (.shiftLeft) :=
  TableRow.at _ 8 _ rfl rfl fun _ => by decide

theorem TableRow.shiftRight : Statement (.shiftRight) :=
  TableRow.at _ 9 _ rfl rfl fun _ => by decide

theorem TableRow.backlightOn : Statement (.backlightOn) :=
  TableRow.at _ 10 _ rfl rfl fun _ => by decide

theorem TableRow.backlightOff : Statement (.backlightOff) :=
  TableRow.at _ 11 _ rfl rfl fun _ => by decide

theorem TableRow.loadCustomChars (g : List Byte) : Statement (.loadCustomChars g) :=
  TableRow.at _ 12 _ rfl rfl fun h => by
    have hg : g.length = 64 := of_decide_eq_true h
    simp [TableRow.holds, encode, commandCode, Code.tableBits, commandWord_opcode_length, hg]

theorem TableRow.qEntryIncrement : Statement (.qEntryIncrement) :=
  TableRow.at _ 13 _ rfl rfl fun _ => by decide

theorem TableRow.qShiftOn : Statement (.qShiftOn) :=
  TableRow.at _ 14 _ rfl rfl fun _ => by decide

theorem TableRow.qDisplayOn : Statement (.qDisplayOn) :=
  TableRow.at _ 15 _ rfl rfl fun _ => by decide

theorem TableRow.qCursorOn : Statement (.qCursorOn) :=
  TableRow.at _ 16 _ rfl rfl fun _ => by decide

theorem TableRow.qBlinkOn : Statement (.qBlinkOn) :=
  TableRow.at _ 17 _ rfl rfl fun _ => by decide

theorem TableRow.qBusWidth : Statement (.qBusWidth) :=
  TableRow.at _ 18 _ rfl rfl fun _ => by decide

theorem TableRow.qLineCount : Statement (.qLineCount) :=
  TableRow.at _ 19 _ rfl rfl fun _ => by decide

theorem TableRow.entryIncrement : Statement (.entryIncrement) :=
  TableRow.at _ 20 _ rfl rfl fun _ => by decide

theorem TableRow.entryDecrement : Statement (.entryDecrement) :=
  TableRow.at _ 21 _ rfl rfl fun _ => by decide

theorem TableRow.entryShiftOn : Statement (.entryShiftOn) :=
  TableRow.at _ 22 _ rfl rfl fun _ => by decide

theorem TableRow.entryShiftOff : Statement (.entryShiftOff) :=
  TableRow.at _ 23 _ rfl rfl fun _ => by decide

theorem TableRow.displayOn : Statement (.displayOn) :=
  TableRow.at _ 24 _ rfl rfl fun _ => by decide

theorem TableRow.displayOff : Statement (.displayOff) :=
  TableRow.at _ 25 _ rfl rfl fun _ => by decide

theorem TableRow.cursorOn : Statement (.cursorOn) :=
  TableRow.at _ 26 _ rfl rfl fun _ => by decide

theorem TableRow.cursorOff : Statement (.cursorOff) :=
  TableRow.at _ 27 _ rfl rfl fun _ => by decide

theorem TableRow.blinkOn : Statement (.blinkOn) :=
  TableRow.at _ 28 _ rfl rfl fun _ => by decide

theorem TableRow.blinkOff : Statement (.blinkOff) :=
  TableRow.at _ 29 _ rfl rfl fun _ => by decide

theorem TableRow.fourBitMode : Statement (.fourBitMode) :=
  TableRow.at _ 30 _ rfl rfl fun _ => by decide

theorem TableRow.eightBitMode : Statement (.eightBitMode) :=
  TableRow.at _ 31 _ rfl rfl fun _ => by decide

theorem TableRow.oneLine : Statement (.oneLine) :=
  TableRow.at _ 32 _ rfl rfl fun _ => by decide

theorem TableRow.twoLine : Statement (.twoLine) :=
  TableRow.at _ 33 _ rfl rfl fun _ => by decide

theorem TableRow.dots5x8 : Statement (.dots5x8) :=
  TableRow.at _ 34 _ rfl rfl fun _ => by decide

theorem TableRow.dots5x10 : Statement (.dots5x10) :=
  TableRow.at _ 35 _ rfl rfl fun _ => by decide

theorem TableRow.lcdClear : Statement (.lcdClear) :=
  TableRow.at _ 36 _ rfl rfl fun _ => by decide

theorem TableRow.lcdHome (x : Bool) : Statement (.lcdHome x) :=
  TableRow.at _ 37 _ rfl rfl fun _ => by
    revert x; decide

theorem TableRow.lcdEntryModeSet (inc shift : Bool) : Statement (.lcdEntryModeSet inc shift) :=
  TableRow.at _ 38 _ rfl rfl fun _ => by
    revert inc shift; decide

theorem TableRow.lcdDisplayModeSet (disp cursor blink : Bool) : Statement (.lcdDisplayModeSet disp cursor blink) :=
  TableRow.at _ 39 _ rfl rfl fun _ => by
    revert disp cursor blink; decide

theorem TableRow.lcdShiftLeft : Statement (.lcdShiftLeft) :=
  TableRow.at _ 40 _ rfl rfl fun _ => by decide

theorem TableRow.lcdShiftRight : Statement (.lcdShiftRight) :=
  TableRow.at _ 41 _ rfl rfl fun _ => by decide

theorem TableRow.lcdFunctionModeSet (dl n f : Bool) : Statement (.lcdFunctionModeSet dl n f) :=
  TableRow.at _ 42 _ rfl rfl fun _ => by
    revert dl n f; decide

theorem TableRow.lcdNop : Statement (.lcdNop) :=
  TableRow.at _ 43 _ rfl rfl fun _ => by decide

theorem TableRow.lcdSetDdram (addr : BitVec 7) : Statement (.lcdSetDdram addr) :=
  TableRow.at _ 44 _ rfl rfl fun _ => by
    revert addr; decide

theorem TableRow.lcdSetCgram : Statement (.lcdSetCgram) :=
  TableRow.at _ 45 _ rfl rfl fun _ => by decide

theorem TableRow.nibReset : Statement (.nibReset) :=
  TableRow.at _ 46 _ rfl rfl fun _ => by decide

theorem TableRow.nib4Bit : Statement (.nib4Bit) :=
  TableRow.at _ 47 _ rfl rfl fun _ => by decide

end Sys2Proof.Laws
end

