-- ==== Sys2Proof/Laws/Step.lean ====
section
/-!
SUPPORT. Steps of a running engine and several steps in a row.
-/

namespace Sys2Proof.Machine

open Sys2Proof

/-- `runSteps` is the host's run of this machine. -/
theorem runSteps_eq_run (n : Nat) (s : State) : runSteps n s = Host.Core.run core n s := by
  induction n generalizing s with
  | zero => rfl
  | succ n ih =>
    have hc : core.step s = step s := rfl
    cases h : step s with
    | next t => simp only [runSteps, Host.Core.run, hc.trans h, h]; exact ih t
    | fault r => simp only [runSteps, Host.Core.run, hc.trans h, h]; rfl
    | refused r => simp only [runSteps, Host.Core.run, hc.trans h, h]; rfl

@[simp] theorem runSteps_zero (s : State) : runSteps 0 s = .next s := rfl

/-- One step, then `n`. -/
theorem runSteps_succ {s t : State} (h : step s = .next t) (n : Nat) :
    runSteps (n + 1) s = runSteps n t := by
  simp only [runSteps, h]

theorem runSteps_one {s t : State} (h : step s = .next t) : runSteps 1 s = .next t :=
  runSteps_succ h 0

/-- `m` steps, then `n`. -/
theorem runSteps_add {m : Nat} {s t : State} (h : runSteps m s = .next t) (n : Nat) :
    runSteps (m + n) s = runSteps n t := by
  induction m generalizing s with
  | zero => cases h; simp
  | succ m ih =>
    rw [show m + 1 + n = (m + n) + 1 by omega]
    simp only [runSteps] at h ⊢
    split at h
    · exact ih h
    · cases h
    · cases h

/-- With the reset input released for good, a busy engine goes on with its micro-op. -/
theorem step_busy {s : State} (hr : s.rst = []) (hb : s.busy = true) : step s = .next s.runMicro := by
  have hp : s.popReset = s := by cases s; simp_all [State.popReset]
  have ht : s.turn = .own s.runMicro := by
    rcases turn_cases s with ⟨h, _⟩ | ⟨_, _, h⟩ | ⟨_, h, _⟩ | ⟨_, h, _⟩
    · simp [State.resetAsserted, hr] at h
    · rw [h, hp]
    · simp [hb] at h
    · simp [hb] at h
  simp only [step, ht]

/-- An idle engine without an offered response looks for something to take. -/
theorem turn_idle {s : State} (hr : s.rst.headD false = false) (hb : s.busy = false)
    (hv : s.rspValid = false) : s.turn = s.popReset.takeNext := by
  unfold State.turn State.resetAsserted
  rw [hr, hb, hv]; rfl

/-- While a command is being taken and a payload byte is presented, that byte is taken. -/
theorem takeNext_byte {s : State} {k : Taking} {b : Byte} {bs : List Byte} (hk : s.taking = some k)
    (hp : s.payload = b :: bs) :
    s.takeNext = ({ s with payload := bs } : State).gather k.word (k.bytes ++ [b]) := by
  simp only [State.takeNext, hk, State.takeByte, hp]

/-- An engine that is taking nothing takes the presented word. -/
theorem takeNext_word {s : State} {w : Word} {ws : List Word} (hk : s.taking = none)
    (hi : s.issue = none) (hw : s.words = w :: ws) :
    s.takeNext = ({ s with words := ws } : State).gather w [] := by
  simp only [State.takeNext, hk, hi, State.takeWord, hw]

end Sys2Proof.Machine
end

