-- ==== Sys2Proof/Syntax/Assembly.lean ====
section
/-!
DEFINITION. The assembler syntax of the host commands (30_encoding.md R97): the mnemonic in capitals and
comma-separated operands, every line exactly one command word with its payload (R98). The machine does
not use it. Numbers are written in decimal, one of the two forms R97 allows.
-/

namespace Sys2Proof

/-- A number, in decimal. -/
def Byte.assembly (b : Byte) : String := toString b.toNat

/-- A list in square brackets. -/
def bracketed (parts : List String) : String := "[" ++ ", ".intercalate parts ++ "]"

/-- The setter's name (R92). -/
def Setter.assembly (x : Setter) : String := x.instr.mnemonic

/-- A character string in double quotes, each byte one character (R97). -/
def quoted (text : List Byte) : String :=
  "\"" ++ String.ofList (text.map fun b => Char.ofNat b.toNat) ++ "\""

/-- The operands of a host command; none for a setter or an emitted instruction, which a host cannot
issue (R98). -/
def Instr.operands : Instr → Option (List String)
  | .construct p ss =>
    some [bracketed (p.toList.map Byte.assembly), bracketed (ss.map Setter.assembly)]
  | .setMode ss => some [bracketed (ss.map Setter.assembly)]
  | .displayString line column text => some [line.assembly, column.assembly, quoted text]
  | .writeChar b => some [b.assembly]
  | .writeInstruction b => some [b.assembly]
  | .setCursorAddress a => some [a.assembly]
  | .loadCustomChars g => some [bracketed (g.map Byte.assembly)]
  | .clear | .home | .shiftLeft | .shiftRight | .backlightOn | .backlightOff => some []
  | .qEntryIncrement | .qShiftOn | .qDisplayOn | .qCursorOn | .qBlinkOn | .qBusWidth
  | .qLineCount => some []
  | .entryIncrement | .entryDecrement | .entryShiftOn | .entryShiftOff => none
  | .displayOn | .displayOff | .cursorOn | .cursorOff | .blinkOn | .blinkOff => none
  | .fourBitMode | .eightBitMode | .oneLine | .twoLine | .dots5x8 | .dots5x10 => none
  | .lcdClear | .lcdHome _ | .lcdEntryModeSet _ _ | .lcdDisplayModeSet _ _ _ => none
  | .lcdShiftLeft | .lcdShiftRight | .lcdFunctionModeSet _ _ _ | .lcdNop => none
  | .lcdSetDdram _ | .lcdSetCgram | .nibReset | .nib4Bit => none

/-- A host command as a line of assembly. -/
def Instr.assembly (i : Instr) : Option String :=
  match i.operands with
  | none => none
  | some [] => some i.mnemonic
  | some (o :: os) => some (i.mnemonic ++ " " ++ ", ".intercalate (o :: os))

end Sys2Proof
end

