-- ==== Sys2Proof/Tests/Slice0.lean ====
section
/-!
SUPPORT. Tests: the WellFormed smoke, decodings of words written out from 30_encoding.md, single steps on
small states with the expected values of 95_test_vectors.md, and for every statement of
Certificates/Slice0/Obligations.lean that has hypotheses a state and operands that meet them.
-/

namespace Sys2Proof.Tests

open Sys2Proof Sys2Proof.Machine

/-! ### Helpers -/

/-- PINMAP_A of 95_test_vectors.md, as payload bytes. -/
def bytesA : List Byte := [0, 1, 2, 4, 5, 6, 7, 3, 0]

/-- PINMAP_A as an operand. -/
def pinA : PinBytes := ⟨0, 1, 2, 4, 5, 6, 7, 3, 0⟩

/-- PINMAP_A. -/
def mapA : PinMap := ⟨0, 1, 2, 4, 5, 6, 7, 3, false⟩

/-- PINMAP_B. -/
def mapB : PinMap := ⟨6, 5, 4, 0, 1, 2, 3, 7, true⟩

/-- PINMAP_C. -/
def mapC : PinMap := ⟨7, 0, 5, 3, 1, 6, 2, 4, false⟩

/-- A ready engine with PINMAP_A, the default modes and the backlight off. -/
def ready : State :=
  { State.reset with life := .ready, pm := mapA, mode := Mode.default, connHeld := true }

/-- The state an outcome ends in; reset stands for a stop, which no outcome here is. -/
def after : Host.Outcome State Fault Refusal → State
  | .next t => t
  | .fault _ => State.reset
  | .refused _ => State.reset

/-- An outcome is a next state that has the property. -/
def ends (o : Host.Outcome State Fault Refusal) (p : State → Bool) : Bool :=
  match o with
  | .next t => p t
  | .fault _ => false
  | .refused _ => false

/-- The bytes executing an instruction will write, and the microseconds it will wait. -/
def sends (i : Instr) (s : State) (bytes : List Byte) (waits : Nat) : Bool :=
  ends (exec i s) fun t => txBytes t.prog == bytes && waitSum t.prog == waits && t.busy

/-- An instruction answers at once with a status and a value, sending nothing. -/
def answers (i : Instr) (s : State) (status value : Byte) : Bool :=
  ends (exec i s) fun t =>
    !t.busy && t.rspValid && t.rspStatus == status && t.rspValue == value && t.trace == s.trace

/-- A setter leaves these three mode fields, from the default modes. -/
def sets (i : Instr) (entry display function : Byte) : Bool :=
  ends (exec i ready) fun t => t.mode == ⟨entry, display, function⟩

/-- A controller instruction emitted by itself puts these bytes into PROG. -/
def emits (i : Instr) (bytes : List Byte) (waits : Nat) : Bool :=
  ends (exec i ready) fun t => txBytes t.prog == bytes && waitSum t.prog == waits

/-! ### WellFormed smoke: ill-formed terms are refused -/

theorem test_wf_construct : (Instr.construct pinA (List.replicate 246 .blinkOn)).WF ∧
    ¬ (Instr.construct pinA (List.replicate 247 .blinkOn)).WF := by
  simp only [Instr.WF, Instr.wellFormed, List.length_replicate]; decide

theorem test_wf_setMode : (Instr.setMode (List.replicate 255 .blinkOn)).WF ∧
    ¬ (Instr.setMode (List.replicate 256 .blinkOn)).WF := by
  simp only [Instr.WF, Instr.wellFormed, List.length_replicate]; decide

theorem test_wf_displayString : (Instr.displayString 0 0 (List.replicate 255 0x41)).WF ∧
    ¬ (Instr.displayString 0 0 (List.replicate 256 0x41)).WF := by
  simp only [Instr.WF, Instr.wellFormed, List.length_replicate]; decide

theorem test_wf_loadCustomChars : (Instr.loadCustomChars (List.replicate 64 0)).WF ∧
    ¬ (Instr.loadCustomChars (List.replicate 63 0)).WF ∧
    ¬ (Instr.loadCustomChars (List.replicate 65 0)).WF := by decide

/-! ### Decoding: words written out from R85, R90, R92, R100 to R110 -/

theorem test_decode_construct : decode (.command 0x0100000B (bytesA ++ [0x06, 0x0C])) =
    .ok (.construct pinA [.cursorOn, .oneLine]) := by decide

theorem test_decode_construct_length : decode (.command 0x01000008 (bytesA.take 8)) =
    .error (.illegalLength 0x01 0x08) := by decide

theorem test_decode_construct_setter : decode (.command 0x0100000A (bytesA ++ [0x10])) =
    .error (.notASetter 0x10) := by decide

theorem test_decode_setMode : decode (.command 0x02000003 [0x07, 0x0D, 0x08]) =
    .ok (.setMode [.cursorOff, .twoLine, .blinkOn]) := by decide

theorem test_decode_displayString : decode (.command 0x03030002 [0x48, 0x69]) =
    .ok (.displayString 3 0 [0x48, 0x69]) := by decide

theorem test_decode_writeChar : decode (.command 0x04410000 []) = .ok (.writeChar 0x41) ∧
    decode (.command 0x04410001 [0x00]) = .error (.illegalLength 0x04 0x01) := by decide

theorem test_decode_writeInstruction :
    decode (.command 0x050C0000 []) = .ok (.writeInstruction 0x0C) := by decide

theorem test_decode_setCursorAddress :
    decode (.command 0x06540000 []) = .ok (.setCursorAddress 0x54) := by decide

theorem test_decode_clear_home_shifts :
    decode (.command 0x07000000 []) = .ok .clear ∧ decode (.command 0x08000000 []) = .ok .home ∧
    decode (.command 0x09000000 []) = .ok .shiftLeft ∧
    decode (.command 0x0A000000 []) = .ok .shiftRight := by decide

theorem test_decode_backlight : decode (.command 0x0B000000 []) = .ok .backlightOn ∧
    decode (.command 0x0C000000 []) = .ok .backlightOff := by decide

theorem test_decode_loadCustomChars :
    decode (.command 0x0D000040 (List.replicate 64 0x1F)) =
      .ok (.loadCustomChars (List.replicate 64 0x1F)) ∧
    decode (.command 0x0D00003F (List.replicate 63 0x1F)) = .error (.illegalLength 0x0D 0x3F) ∧
    decode (.command 0x0D000041 (List.replicate 65 0x1F)) = .error (.illegalLength 0x0D 0x41) := by
  decide

theorem test_decode_queries :
    decode (.command 0x10000000 []) = .ok .qEntryIncrement ∧
    decode (.command 0x11000000 []) = .ok .qShiftOn ∧
    decode (.command 0x12000000 []) = .ok .qDisplayOn ∧
    decode (.command 0x13000000 []) = .ok .qCursorOn ∧
    decode (.command 0x14000000 []) = .ok .qBlinkOn ∧
    decode (.command 0x15000000 []) = .ok .qBusWidth ∧
    decode (.command 0x16000000 []) = .ok .qLineCount := by decide

theorem test_decode_unknown_opcodes :
    decode (.command 0x00000000 []) = .error (.unknownOpcode 0x00) ∧
    decode (.command 0x0E000000 []) = .error (.unknownOpcode 0x0E) ∧
    decode (.command 0x0F000000 []) = .error (.unknownOpcode 0x0F) ∧
    decode (.command 0x17000002 [1, 2]) = .error (.unknownOpcode 0x17) ∧
    decode (.command 0xFF000000 []) = .error (.unknownOpcode 0xFF) := by decide

theorem test_decode_ignores_unused_fields :
    decode (.command 0x07AB5500 []) = .ok .clear ∧
    decode (.command 0x0441FF00 []) = .ok (.writeChar 0x41) := by decide

theorem test_decode_entry_setters :
    decode (.internal (.setter 0x00)) = .ok .entryIncrement ∧
    decode (.internal (.setter 0x01)) = .ok .entryDecrement ∧
    decode (.internal (.setter 0x02)) = .ok .entryShiftOn ∧
    decode (.internal (.setter 0x03)) = .ok .entryShiftOff := by decide

theorem test_decode_display_setters :
    decode (.internal (.setter 0x04)) = .ok .displayOn ∧
    decode (.internal (.setter 0x05)) = .ok .displayOff ∧
    decode (.internal (.setter 0x06)) = .ok .cursorOn ∧
    decode (.internal (.setter 0x07)) = .ok .cursorOff ∧
    decode (.internal (.setter 0x08)) = .ok .blinkOn ∧
    decode (.internal (.setter 0x09)) = .ok .blinkOff := by decide

theorem test_decode_function_setters :
    decode (.internal (.setter 0x0A)) = .ok .fourBitMode ∧
    decode (.internal (.setter 0x0B)) = .ok .eightBitMode ∧
    decode (.internal (.setter 0x0C)) = .ok .oneLine ∧
    decode (.internal (.setter 0x0D)) = .ok .twoLine ∧
    decode (.internal (.setter 0x0E)) = .ok .dots5x8 ∧
    decode (.internal (.setter 0x0F)) = .ok .dots5x10 ∧
    decode (.internal (.setter 0x10)) = .error (.notASetter 0x10) := by decide

theorem test_decode_emitted :
    decode (.internal (.controller 0x01)) = .ok .lcdClear ∧
    decode (.internal (.controller 0x02)) = .ok (.lcdHome false) ∧
    decode (.internal (.controller 0x03)) = .ok (.lcdHome true) ∧
    decode (.internal (.controller 0x18)) = .ok .lcdShiftLeft ∧
    decode (.internal (.controller 0x1C)) = .ok .lcdShiftRight ∧
    decode (.internal (.controller 0x00)) = .ok .lcdNop ∧
    decode (.internal (.controller 0x40)) = .ok .lcdSetCgram ∧
    decode (.internal (.controller 0x41)) = .error (.notEmittedByte 0x41) := by decide

theorem test_decode_emitted_fields :
    decode (.internal (.controller 0x06)) = .ok (.lcdEntryModeSet true false) ∧
    decode (.internal (.controller 0x05)) = .ok (.lcdEntryModeSet false true) ∧
    decode (.internal (.controller 0x0C)) = .ok (.lcdDisplayModeSet true false false) ∧
    decode (.internal (.controller 0x0B)) = .ok (.lcdDisplayModeSet false true true) ∧
    decode (.internal (.controller 0x28)) = .ok (.lcdFunctionModeSet false true false) ∧
    decode (.internal (.controller 0x34)) = .ok (.lcdFunctionModeSet true false true) ∧
    decode (.internal (.controller 0xD4)) = .ok (.lcdSetDdram 0x54) := by decide

theorem test_decode_nibbles : decode (.internal (.nibble 0x3)) = .ok .nibReset ∧
    decode (.internal (.nibble 0x2)) = .ok .nib4Bit ∧
    decode (.internal (.nibble 0x0)) = .error (.notEmittedNibble 0x0) := by decide

/-- No two rows of one format hold one code: where the values differ under both masks, no word meets both. -/
theorem test_rows_do_not_overlap : opcodeTable.Pairwise fun r q =>
    r.format ≠ q.format ∨ r.value &&& q.mask ≠ q.value &&& r.mask := by decide

theorem test_table_has_48_rows : opcodeTable.length = 48 ∧ (opcodeTable.map (·.mnemonic)).Nodup := by
  decide

theorem test_decodeTableWord :
    decodeTableWord 32 0x07000000 = some .clear ∧
    decodeTableWord 112 0x080003070605040201000100000A = some (.construct pinA [.blinkOn]) ∧
    decodeTableWord 32 0x01000000 = none ∧ decodeTableWord 32 0x0D000000 = none ∧
    decodeTableWord 8 0x0B = some .eightBitMode ∧ decodeTableWord 8 0x28 =
      some (.lcdFunctionModeSet false true false) ∧ decodeTableWord 4 0x3 = some .nibReset := by
  decide

theorem test_assembly : Instr.clear.assembly = some "CLEAR" ∧
    (Instr.setMode [.displayOff]).assembly = some "SET_MODE [DisplayOff]" ∧
    (Instr.displayString 1 3 [0x41, 0x42]).assembly = some "DISPLAY_STRING 1, 3, \"AB\"" ∧
    Instr.nibReset.assembly = none := by decide

/-! ### Frames (V-ENC, V-NIB) -/

theorem test_split_A : split mapA false true 0x41 = (0x41, 0x11) ∧
    split mapA true false 0xC3 = (0xC8, 0x38) := by decide

theorem test_split_B : split mapB false false 0x00 = (0x80, 0x80) ∧
    split mapB true true 0x41 = (0x44, 0x41) ∧ split mapB false true 0xA5 = (0xCA, 0xC5) := by decide

theorem test_split_C : split mapC false false 0xFF = (0x4E, 0x4E) ∧
    split mapC true true 0x5A = (0xD8, 0x96) ∧ split mapC false true 0xA5 = (0x86, 0xC8) := by decide

theorem test_nibbleOf_C : nibbleOf mapC 0xC0 = 0x4 ∧ nibbleOf mapC 0x88 = 0x1 := by decide

theorem test_validate_accepts : validatePinMap pinA = some mapA ∧
    validatePinMap ⟨6, 5, 4, 0, 1, 2, 3, 7, 1⟩ = some mapB ∧
    validatePinMap ⟨7, 0, 5, 3, 1, 6, 2, 4, 0⟩ = some mapC := by decide

theorem test_validate_rejects : validatePinMap ⟨0, 1, 3, 2, 5, 6, 7, 2, 0⟩ = none ∧
    validatePinMap ⟨0, 0, 2, 4, 5, 6, 7, 3, 0⟩ = none ∧
    validatePinMap ⟨0, 1, 2, 4, 5, 6, 8, 3, 0⟩ = none ∧
    validatePinMap ⟨0, 1, 2, 4, 5, 6, 7, 3, 2⟩ = none := by decide

/-! ### Commands: bytes and waits of 95_test_vectors.md -/

theorem test_writeChar : sends (.writeChar 0x01) ready [0x01, 0x05, 0x01, 0x11, 0x15, 0x11] 506 := by
  decide

theorem test_writeInstruction_short :
    sends (.writeInstruction 0x04) ready [0x00, 0x04, 0x00, 0x40, 0x44, 0x40] 506 := by decide

theorem test_writeInstruction_long :
    sends (.writeInstruction 0x03) ready [0x00, 0x04, 0x00, 0x30, 0x34, 0x30] 2066 := by decide

theorem test_setMode : sends (.setMode [.entryDecrement, .entryShiftOn]) ready
    [0x00, 0x04, 0x00, 0x50, 0x54, 0x50, 0x00, 0x04, 0x00, 0xC0, 0xC4, 0xC0,
     0x20, 0x24, 0x20, 0x80, 0x84, 0x80] 1518 := by decide

theorem test_setMode_C : sends (.setMode [.entryShiftOn, .cursorOn, .blinkOn])
    { ready with pm := mapC, bl := true }
    [0x10, 0x30, 0x10, 0x5A, 0x7A, 0x5A, 0x10, 0x30, 0x10, 0x5E, 0x7E, 0x5E,
     0x12, 0x32, 0x12, 0x14, 0x34, 0x14] 1518 := by decide

theorem test_clear_B : sends .clear { ready with pm := mapB }
    [0x80, 0x90, 0x80, 0x81, 0x91, 0x81, 0x80, 0x90, 0x80, 0x86, 0x96, 0x86,
     0x80, 0x90, 0x80, 0x8C, 0x9C, 0x8C, 0x82, 0x92, 0x82, 0x88, 0x98, 0x88] 3584 := by decide

theorem test_displayString : sends (.displayString 1 3 [0x41, 0x42]) ready
    [0xC0, 0xC4, 0xC0, 0x30, 0x34, 0x30, 0x41, 0x45, 0x41, 0x11, 0x15, 0x11,
     0x41, 0x45, 0x41, 0x21, 0x25, 0x21] 1518 := by decide

theorem test_displayString_line4 : answers (.displayString 4 0 []) ready 0x03 0x00 := by decide

theorem test_setCursorAddress : sends (.setCursorAddress 0xD4) ready
    [0xD0, 0xD4, 0xD0, 0x40, 0x44, 0x40] 506 := by decide

theorem test_home_B : sends .home { ready with pm := mapB }
    [0x80, 0x90, 0x80, 0x82, 0x92, 0x82] 2066 := by decide

theorem test_shifts :
    sends .shiftLeft ready [0x10, 0x14, 0x10, 0x80, 0x84, 0x80] 506 ∧
    sends .shiftRight ready [0x10, 0x14, 0x10, 0xC0, 0xC4, 0xC0] 506 := by decide

theorem test_backlightOn_B : sends .backlightOn { ready with pm := mapB }
    [0x00, 0x10, 0x00, 0x00, 0x10, 0x00] 506 := by decide

theorem test_backlightOff_B : sends .backlightOff { ready with pm := mapB, bl := true }
    [0x80, 0x90, 0x80, 0x80, 0x90, 0x80] 506 := by decide

theorem test_loadCustomChars_unmasked : ends (exec (.loadCustomChars [0xFF]) ready) fun t =>
    txBytes t.prog == [0x40, 0x44, 0x40, 0x00, 0x04, 0x00, 0xF1, 0xF5, 0xF1, 0xF1, 0xF5, 0xF1] := by
  decide

theorem test_construct_C : sends (.construct ⟨7, 0, 5, 3, 1, 6, 2, 4, 0⟩ []) State.reset
    [0x0A, 0x2A, 0x0A, 0x0A, 0x2A, 0x0A, 0x0A, 0x2A, 0x0A, 0x02, 0x22, 0x02,
     0x00, 0x20, 0x00, 0x08, 0x28, 0x08, 0x00, 0x20, 0x00, 0x42, 0x62, 0x42,
     0x00, 0x20, 0x00, 0x44, 0x64, 0x44, 0x02, 0x22, 0x02, 0x04, 0x24, 0x04] 23796 := by decide

theorem test_construct_duplicate :
    answers (.construct ⟨0, 1, 3, 2, 5, 6, 7, 2, 0⟩ []) ready 0x02 0x00 := by decide

theorem test_queries_default :
    answers .qEntryIncrement ready 0 0x01 ∧ answers .qShiftOn ready 0 0x00 ∧
    answers .qDisplayOn ready 0 0x01 ∧ answers .qCursorOn ready 0 0x00 ∧
    answers .qBlinkOn ready 0 0x00 ∧ answers .qBusWidth ready 0 0x04 ∧
    answers .qLineCount ready 0 0x02 := by decide

theorem test_queries_other :
    let s := { ready with mode := ⟨0x01, 0x03, 0x10⟩ }
    answers .qEntryIncrement s 0 0x00 ∧ answers .qShiftOn s 0 0x01 ∧
    answers .qDisplayOn s 0 0x00 ∧ answers .qCursorOn s 0 0x01 ∧ answers .qBlinkOn s 0 0x01 ∧
    answers .qBusWidth s 0 0x08 ∧ answers .qLineCount s 0 0x01 := by decide

theorem test_not_ready : answers .clear State.reset 0x04 0x00 ∧
    answers (.displayString 5 0 []) State.reset 0x04 0x00 := by decide

theorem test_entry_setters : sets .entryIncrement 2 4 8 ∧ sets .entryDecrement 0 4 8 ∧
    sets .entryShiftOn 3 4 8 ∧ sets .entryShiftOff 2 4 8 := by decide

theorem test_display_setters : sets .displayOn 2 4 8 ∧ sets .displayOff 2 0 8 ∧
    sets .cursorOn 2 6 8 ∧ sets .cursorOff 2 4 8 ∧ sets .blinkOn 2 5 8 ∧ sets .blinkOff 2 4 8 := by
  decide

theorem test_function_setters : sets .fourBitMode 2 4 8 ∧ sets .eightBitMode 2 4 0x18 ∧
    sets .oneLine 2 4 0 ∧ sets .twoLine 2 4 8 ∧ sets .dots5x8 2 4 8 ∧ sets .dots5x10 2 4 0x0C := by
  decide

theorem test_setters_from_second_members :
    applySetters [.entryDecrement, .entryShiftOn, .displayOff, .cursorOn, .blinkOn, .eightBitMode,
      .oneLine, .dots5x10] Mode.default = ⟨0x01, 0x03, 0x14⟩ := by decide

theorem test_emitted_fixed :
    emits .lcdClear [0x00, 0x04, 0x00, 0x10, 0x14, 0x10] 2066 ∧
    emits (.lcdHome false) [0x00, 0x04, 0x00, 0x20, 0x24, 0x20] 2066 ∧
    emits .lcdShiftLeft [0x10, 0x14, 0x10, 0x80, 0x84, 0x80] 506 ∧
    emits .lcdShiftRight [0x10, 0x14, 0x10, 0xC0, 0xC4, 0xC0] 506 ∧
    emits .lcdNop [0x00, 0x04, 0x00, 0x00, 0x04, 0x00] 506 ∧
    emits .lcdSetCgram [0x40, 0x44, 0x40, 0x00, 0x04, 0x00] 506 := by decide

theorem test_emitted_fields :
    emits (.lcdEntryModeSet true false) [0x00, 0x04, 0x00, 0x60, 0x64, 0x60] 506 ∧
    emits (.lcdDisplayModeSet true false false) [0x00, 0x04, 0x00, 0xC0, 0xC4, 0xC0] 506 ∧
    emits (.lcdFunctionModeSet false true false) [0x20, 0x24, 0x20, 0x80, 0x84, 0x80] 506 ∧
    emits (.lcdSetDdram 0x54) [0xD0, 0xD4, 0xD0, 0x40, 0x44, 0x40] 506 := by decide

theorem test_emitted_nibbles : emits .nibReset [0x30, 0x34, 0x30] 233 ∧
    emits .nib4Bit [0x20, 0x24, 0x20] 233 := by decide

/-! ### Single steps -/

/-- An engine in which HOME has been accepted: the first wait is running. -/
def homing : State := { after (exec .home { ready with busy := true }) with cmdOp := 0x08 }

/-- The same with the first byte presented. -/
def presenting : State := after (step homing)

/-- The same in the last wait of the command. -/
def finishing : State := { homing with seq := 16, timer := 2 }

/-- The engine after reset with a CONSTRUCT PINMAP_A and its payload on the host port. -/
def asking : State := { State.reset with words := [0x01000009], payload := bytesA }

/-- The same with the word and all but the last payload byte taken. -/
def asked : State :=
  { State.reset with taking := some ⟨0x01000009, bytesA.take 8⟩, payload := bytesA.drop 8 }

/-- The same after its acceptance: the power-settle wait is running. -/
def constructing : State := after (step asked)

/-- The same with the first reset nibble's first byte presented. -/
def constructingTx : State :=
  { constructing with seq := 2, timer := 0, txreg := 0x30, txValid := true }

/-- The same in the last wait of the initialization. -/
def constructingEnd : State := { constructing with seq := 104, timer := 1 }

theorem test_step_presents : presenting.seq = 1 ∧ presenting.txPort = some 0x00 ∧
    presenting.trace = [.wait 1] := by decide

theorem test_step_accepts_construct : constructing.life = .initialising ∧ constructing.timer = 15 ∧
    constructing.cmdN = 9 ∧ constructing.pbuf = bytesA ∧ constructing.payload = [] := by decide

theorem test_step_fails : ends (step { constructingTx with answers := [.fail] }) fun t =>
    t.trace == [.txFail 0x30] && t.life == .unconfigured && t.fault && t.rspStatus == 0x01 := by
  decide

theorem test_step_finishes : ends (step constructingEnd) fun t =>
    t.life == .ready && t.rspValid && t.rspStatus == 0x00 && !t.busy := by decide

theorem test_step_takes_word : ends (step asking) fun t =>
    t == { asking with words := [], taking := some ⟨0x01000009, []⟩ } := by decide

theorem test_step_takes_byte :
    ends (step { asking with words := [], taking := some ⟨0x01000009, []⟩ }) fun t =>
      t == { asking with words := [], payload := bytesA.drop 1, taking := some ⟨0x01000009, [0]⟩ } := by
  decide

theorem test_ready_outputs : asking.cmdReady ∧ ¬ asking.plReady ∧ asked.plReady ∧ ¬ asked.cmdReady ∧
    ¬ constructing.cmdReady ∧ ¬ constructing.plReady := by decide

/-- A reset between two payload bytes drops the bytes taken, and only these. -/
theorem test_step_reset_drops_taken : ends (step { asked with rst := [true] }) fun t =>
    t == { State.reset with payload := bytesA.drop 8 } := by decide

theorem test_step_illegal_takes_payload :
    ends (step { ready with taking := some ⟨0x17000002, [1]⟩, payload := [2, 3] }) fun t =>
      t.payload == [3] && t.rspStatus == 0x05 && t.life == .ready && t.taking == none := by decide

theorem test_step_reset : ends (step { constructingTx with rst := [true] }) fun t =>
    t == { State.reset with pm := PinMap.zero } := by decide

theorem test_ticks : ticksOf 1000000 15000 = 15 ∧ ticksOf 1000000 1 = 1 ∧ ticksOf 3000 40 = 14 := by
  decide

theorem test_withFetchWord_command : ends (step (State.reset.withFetchWord 32 0x07000000)) fun t =>
    t.rspValid && t.rspStatus == 0x04 && t.cmdOp == 0x07 := by decide

theorem test_withFetchWord_payload : ends (step (ready.withFetchWord 40 0x0502000001)) fun t =>
    t.busy && t.pbuf == [0x05] && t.mode.display == 0x00 := by decide

theorem test_withFetchWord_setter : ends (step (State.reset.withFetchWord 8 0x04)) fun t =>
    t.mode.display == 0x04 := by decide

theorem test_withFetchWord_emitted : ends (step (ready.withFetchWord 8 0x18)) fun t =>
    txBytes t.prog == [0x10, 0x14, 0x10, 0x80, 0x84, 0x80] && t.busy := by decide

/-! ### States that meet the invariant -/

theorem inv_ready : EngineInv ready where
  noIssue := rfl
  pinMap := by decide
  held := by decide
  masks := by decide
  busyLife := by decide
  initialising := by decide
  busyResponse := by decide
  position := by decide
  taking := fun _ h => nomatch h
  presented := by decide
  timerIdle := fun _ => rfl
  payload := rfl
  frames := fun h => nomatch h
  length := by decide

theorem inv_reset : EngineInv State.reset where
  noIssue := rfl
  pinMap := by decide
  held := by decide
  masks := by decide
  busyLife := by decide
  initialising := by decide
  busyResponse := by decide
  position := by decide
  taking := fun _ h => nomatch h
  presented := by decide
  timerIdle := fun _ => rfl
  payload := rfl
  frames := fun h => nomatch h
  length := by decide

theorem inv_homing : EngineInv homing where
  noIssue := rfl
  pinMap := by decide
  held := by decide
  masks := by decide
  busyLife := by decide
  initialising := by decide
  busyResponse := by decide
  position := by decide
  taking := fun _ h => nomatch h
  presented := by decide
  timerIdle := fun h => absurd ⟨rfl, rfl⟩ (h 1)
  payload := rfl
  frames := fun _ _ h => busByte_byteOps (cfg := Config.spec) (rs := false) (v := 0x02) h
  length := by decide

theorem inv_presenting : EngineInv presenting where
  noIssue := rfl
  pinMap := by decide
  held := by decide
  masks := by decide
  busyLife := by decide
  initialising := by decide
  busyResponse := by decide
  position := by decide
  taking := fun _ h => nomatch h
  presented := by decide
  timerIdle := fun _ => rfl
  payload := rfl
  frames := fun _ _ h => busByte_byteOps (cfg := Config.spec) (rs := false) (v := 0x02) h
  length := by decide

theorem inv_constructing : EngineInv constructing where
  noIssue := rfl
  pinMap := by decide
  held := by decide
  masks := by decide
  busyLife := by decide
  initialising := by decide
  busyResponse := by decide
  position := by decide
  taking := fun _ h => nomatch h
  presented := by decide
  timerIdle := fun h => absurd ⟨rfl, rfl⟩ (h 15000)
  payload := rfl
  frames := fun _ _ h =>
    busByte_initOps (cfg := Config.spec) (m := Mode.default) h
  length := by decide

theorem inv_constructingTx : EngineInv constructingTx where
  noIssue := rfl
  pinMap := by decide
  held := by decide
  masks := by decide
  busyLife := by decide
  initialising := by decide
  busyResponse := by decide
  position := by decide
  taking := fun _ h => nomatch h
  presented := by decide
  timerIdle := fun _ => rfl
  payload := rfl
  frames := fun _ _ h =>
    busByte_initOps (cfg := Config.spec) (m := Mode.default) h
  length := by decide

theorem inv_constructingEnd : EngineInv constructingEnd where
  noIssue := rfl
  pinMap := by decide
  held := by decide
  masks := by decide
  busyLife := by decide
  initialising := by decide
  busyResponse := by decide
  position := by decide
  taking := fun _ h => nomatch h
  presented := by decide
  timerIdle := fun h => absurd ⟨rfl, rfl⟩ (h 40)
  payload := rfl
  frames := fun _ _ h =>
    busByte_initOps (cfg := Config.spec) (m := Mode.default) h
  length := by decide

/-- The invariant does not look at the inputs. -/
theorem inv_inputs {s : State} (h : EngineInv s) (rst : List Bool) (words : List Word)
    (payload : List Byte) (ans : List TxAnswer) :
    EngineInv { s with rst := rst, words := words, payload := payload, answers := ans } :=
  ⟨h.noIssue, h.pinMap, h.held, h.masks, h.busyLife, h.initialising, h.busyResponse, h.position,
    h.taking, h.presented, h.timerIdle, h.payload, h.frames, h.length⟩

theorem inv_asking : EngineInv asking := inv_inputs inv_reset [] [0x01000009] bytesA []

/-- Nor at what the command being taken is, as long as its payload is not whole. -/
theorem inv_taking {s : State} (h : EngineInv s) (k : Taking) (hb : s.busy = false)
    (hv : s.rspValid = false) (hk : k.bytes.length < (nOf k.word).toNat) :
    EngineInv { s with taking := some k } :=
  ⟨h.noIssue, h.pinMap, h.held, h.masks, h.busyLife, h.initialising, h.busyResponse, h.position,
    fun _ e => Option.some.inj e ▸ ⟨hb, hv, hk⟩, h.presented, h.timerIdle, h.payload, h.frames,
    h.length⟩

theorem inv_asked : EngineInv asked :=
  inv_inputs (inv_taking inv_reset ⟨0x01000009, bytesA.take 8⟩ rfl rfl (by decide)) [] []
    (bytesA.drop 8) []

/-! ### Witnesses: the hypotheses of every statement are met together -/

theorem witness_DecodeOfEncodeIsTheInstruction :
    (Instr.construct pinA (List.replicate 246 .blinkOn)).WF ∧
    (Instr.displayString 0xFF 0xFF [0xFF]).WF ∧ (Instr.setMode []).WF ∧
    (Instr.lcdSetDdram 0x7F).WF := by
  simp only [Instr.WF, Instr.wellFormed, List.length_replicate]; decide

theorem witness_DecodedInstructionsAreWellFormed :
    decode (.command 0x0D000040 (List.replicate 64 0xFF)) =
      .ok (.loadCustomChars (List.replicate 64 0xFF)) := by decide

theorem witness_EncodeOfDecodedIsTheCode :
    decode (.internal (.controller 0xFF)) = .ok (.lcdSetDdram 0x7F) ∧
    decode (.command 0x03FFFE01 [0x41]) = .ok (.displayString 0xFF 0xFE [0x41]) ∧
    decode (.command 0x06FFFF00 []) = .ok (.setCursorAddress 0xFF) ∧
    decode (.command 0x07FFFF00 []) = .ok .clear := by decide

/-- Each row's boundary, accepted and rejected. -/
theorem witness_RejectedCommandsAreTheIllegalOnes :
    (bytesA.length = (nOf 0x01000009).toNat ∧
      decode (.command 0x01000009 bytesA) = .ok (.construct pinA [])) ∧
    ((bytesA ++ [0x0F]).length = (nOf 0x0100000A).toNat ∧
      decode (.command 0x0100000A (bytesA ++ [0x0F])) = .ok (.construct pinA [.dots5x10])) ∧
    (([] : List Byte).length = (nOf 0x02000000).toNat ∧
      decode (.command 0x02000000 []) = .ok (.setMode [])) ∧
    (([] : List Byte).length = (nOf 0x04000000).toNat ∧
      decode (.command 0x04000000 []) = .ok (.writeChar 0)) ∧
    (([] : List Byte).length = (nOf 0x0C000000).toNat ∧
      decode (.command 0x0C000000 []) = .ok .backlightOff) ∧
    (([7] : List Byte).length = (nOf 0x0C000001).toNat ∧
      decode (.command 0x0C000001 [7]) = .error (.illegalLength 0x0C 1)) ∧
    (([] : List Byte).length = (nOf 0x10000000).toNat ∧
      decode (.command 0x10000000 []) = .ok .qEntryIncrement) ∧
    (([] : List Byte).length = (nOf 0x16000000).toNat ∧
      decode (.command 0x16000000 []) = .ok .qLineCount) ∧
    (([] : List Byte).length = (nOf 0x17000000).toNat ∧
      decode (.command 0x17000000 []) = .error (.unknownOpcode 0x17)) := by decide

theorem witness_PinMapValidationAcceptsExactlyPermutations :
    validatePinMap pinA = some mapA ∧ validatePinMap ⟨7, 6, 5, 4, 3, 2, 1, 0, 1⟩ =
      some ⟨7, 6, 5, 4, 3, 2, 1, 0, true⟩ ∧
    validatePinMap ⟨8, 6, 5, 4, 3, 2, 1, 0, 1⟩ = none ∧
    validatePinMap ⟨7, 6, 5, 4, 3, 2, 1, 0, 2⟩ = none ∧
    validatePinMap ⟨7, 6, 5, 4, 3, 2, 1, 1, 0⟩ = none := by decide

theorem witness_FramesDecodeToTheValue : mapA.Valid ∧ mapB.Valid ∧ mapC.Valid := by decide

theorem witness_EveryFrameBitIsItsSignal : mapC.Valid ∧
    (encodeFrame mapC true true 0xF).getLsbD 0 = false ∧
    (encodeFrame mapC true true 0xF).getLsbD 5 = false ∧
    (encodeFrame mapC true true 0xF).getLsbD 7 = true := by decide

theorem witness_SetterLaws :
    Setter.code .cursorOn >>> 1 = Setter.code .cursorOff >>> 1 ∧
    Setter.code .entryIncrement >>> 1 = Setter.code .entryDecrement >>> 1 ∧
    Mode.Masked ⟨0x03, 0x07, 0x1C⟩ ∧ Mode.Masked ⟨0, 0, 0⟩ ∧ ¬ Mode.Masked ⟨0x04, 0, 0⟩ := by decide

theorem witness_SetterLaws_clear : ends (exec .clear ready) (fun t =>
    ends (exec .qLineCount ready) (fun v => v.rspValue == 0x02) &&
    ends (exec .qLineCount t) (fun w => w.rspValue == 0x02)) := by decide

theorem witness_SettersApplyLeftToRight :
    Setter.code .oneLine >>> 1 = Setter.code .twoLine >>> 1 ∧
    Setter.code .oneLine >>> 1 ≠ Setter.code .dots5x10 >>> 1 := by decide

theorem witness_ConstructConfiguresAndStartsInitialization :
    State.reset.cfg = Config.spec ∧ validatePinMap pinA = some mapA := by decide

/-- The hypotheses of the statements about a command of a ready engine (SetModeAppliesThenCommits,
ClearSendsClearThenCommit, RawWritesSendTheirOperand, SingleInstructionCommandsSendTheirByte,
BacklightCommandsWriteThenSend, LoadCustomCharsStreamsTheRows, QueriesAnswerTheirModeBit,
EmittedInstructionsExtendTheProgram). -/
theorem witness_ready_commands : ready.cfg = Config.spec ∧ ready.life = .ready := by decide

theorem witness_DisplayStringPositionsThenStreams :
    ready.cfg = Config.spec ∧ ready.life = .ready ∧
    ((0 : Byte), (0x00 : Byte)) ∈ [((0 : Byte), (0x00 : Byte)), (1, 0x40), (2, 0x10), (3, 0x54)] ∧
    ((3 : Byte), (0x54 : Byte)) ∈ [((0 : Byte), (0x00 : Byte)), (1, 0x40), (2, 0x10), (3, 0x54)] ∧
    3 < (4 : Byte).toNat ∧ 3 < (0xFF : Byte).toNat := by decide

theorem witness_CommandsAreBuiltFromEmittedInstructions :
    ready.cfg = Config.spec ∧ ready.life = .ready ∧ ready.mode.Masked ∧
    ends (exec .clear ready) (fun _ => true) ∧ ends (exec (.setMode []) ready) (fun _ => true) ∧
    ends (exec .home ready) (fun _ => true) := by decide

theorem witness_NotReadyRefusesEverythingButConstruct :
    State.reset.life ≠ .ready ∧ constructing.life ≠ .ready ∧
    Instr.home ∈ [Instr.setMode [], .displayString 0 0 [], .writeChar 0, .writeInstruction 0,
        .setCursorAddress 0, .clear, .home, .shiftLeft, .shiftRight, .backlightOn, .backlightOff,
        .loadCustomChars [], .qEntryIncrement, .qShiftOn, .qDisplayOn, .qCursorOn, .qBlinkOn,
        .qBusWidth, .qLineCount] := by decide

theorem witness_BusWriteAndWaitTotals :
    ready.cfg = Config.spec ∧ ready.life = .ready ∧ validatePinMap pinA ≠ none ∧
    (3 : Byte).toNat ≤ 3 ∧ (List.replicate 64 (0 : Byte)).length = 64 ∧
    (∀ i ∈ [Instr.construct pinA [], .setMode [], .clear, .home, .shiftLeft, .shiftRight,
      .writeChar 0, .setCursorAddress 0, .backlightOn, .backlightOff, .writeInstruction 0x03,
      .writeInstruction 0x04, .displayString 3 0 [1], .loadCustomChars (List.replicate 64 0),
      .qEntryIncrement, .qShiftOn, .qDisplayOn, .qCursorOn, .qBlinkOn, .qBusWidth, .qLineCount],
      ends (exec i ready) (fun _ => true) = true) := by decide

/-- The hypotheses of StepExecutesTheAcceptedCommand, without and with a payload. -/
theorem witness_StepExecutesTheAcceptedCommand :
    (let s := { ready with words := [0x08000000] };
      s.rst.headD false = false ∧ s.busy = false ∧ s.rspValid = false ∧
      decode (.command 0x08000000 []) = .ok .home ∧ s.taking = none ∧ s.issue = none ∧
      s.words = 0x08000000 :: []) ∧
    (asked.rst.headD false = false ∧ asked.busy = false ∧ asked.rspValid = false ∧
      decode (.command 0x01000009 bytesA) = .ok (.construct pinA []) ∧
      bytesA = bytesA.take 8 ++ [0x00] ∧ asked.taking = some ⟨0x01000009, bytesA.take 8⟩ ∧
      asked.payload = 0x00 :: []) := by decide

/-- The hypotheses of StepExecutesAnIssuedOperation: one that fills PROG, and one that leaves it empty. -/
theorem witness_StepExecutesAnIssuedOperation :
    (let s := { ready with issue := some (.controller 0x18) };
      s.rst.headD false = false ∧ s.busy = false ∧ s.rspValid = false ∧ s.taking = none ∧
      s.issue = some (.controller 0x18) ∧
      decode (.internal (.controller 0x18)) = .ok .lcdShiftLeft ∧
      ends (exec .lcdShiftLeft { s with issue := none, busy := true }) (fun t => t.prog.length == 17)) ∧
    (let s := { ready with issue := some (.setter 0x09) };
      s.rst.headD false = false ∧ s.busy = false ∧ s.rspValid = false ∧ s.taking = none ∧
      s.issue = some (.setter 0x09) ∧ decode (.internal (.setter 0x09)) = .ok .blinkOff ∧
      ends (exec .blinkOff { s with issue := none, busy := true }) (fun t => t.prog == [])) := by
  decide

/-- The hypotheses of IllegalCommandIsAnsweredAfterItsPayload, without and with a payload. -/
theorem witness_IllegalCommandIsAnsweredAfterItsPayload :
    (let s := { ready with words := [0x0E000000] };
      s.rst.headD false = false ∧ s.busy = false ∧ s.rspValid = false ∧
      ([] : List Byte).length = (nOf 0x0E000000).toNat ∧
      decode (.command 0x0E000000 []) = .error (.unknownOpcode 0x0E) ∧ s.taking = none ∧
      s.issue = none ∧ s.words = 0x0E000000 :: []) ∧
    (let s := { ready with taking := some ⟨0x17000002, [1]⟩, payload := [2, 3] };
      s.rst.headD false = false ∧ s.busy = false ∧ s.rspValid = false ∧
      ([1, 2] : List Byte).length = (nOf 0x17000002).toNat ∧
      decode (.command 0x17000002 [1, 2]) = .error (.unknownOpcode 0x17) ∧
      ([1, 2] : List Byte) = [1] ++ [2] ∧ s.taking = some ⟨0x17000002, [1]⟩ ∧
      s.payload = 2 :: [3]) := by decide

theorem witness_NothingIsTakenBeforeItsTime :
    (ready.rst.headD false = false ∧ ready.busy = false ∧ ready.rspValid = false ∧
      ready.taking = none ∧ ready.issue = none ∧ ready.words = []) ∧
    (let s := { asked with payload := [] };
      s.rst.headD false = false ∧ s.busy = false ∧ s.rspValid = false ∧
      s.taking = some ⟨0x01000009, bytesA.take 8⟩ ∧ s.payload = []) ∧
    homing.rst.headD false = false ∧ homing.busy = true ∧
    ({ ready with rspValid := true } : State).rspValid = true := by decide

theorem witness_ResponseIsHeldUntilTaken :
    (let s := { ready with rspValid := true };
      s.rst.headD false = false ∧ s.busy = false ∧ s.rspValid = true ∧
      s.rspReady.headD true = true) ∧
    (let s := { ready with rspValid := true, rspReady := [false, true] };
      s.rst.headD false = false ∧ s.busy = false ∧ s.rspValid = true ∧
      s.rspReady.headD true = false) := by decide

theorem witness_ResetInputWinsOverEverything :
    ({ constructingTx with rst := [true, false] } : State).rst.headD false = true := by decide

/-- The loading after a write; a wait of 15 ticks; a wait of 0 ticks. -/
theorem witness_WaitLastsItsTicks :
    0 < State.reset.tickNs ∧
    (let s := { constructingTx with answers := [.ok] };
      s.rst = [] ∧ s.busy = true ∧ s.prog[s.seq]? = some (.tx 0x30) ∧ s.answers = .ok :: [] ∧
      s.prog[s.seq + 1]? = some (.wait 1)) ∧
    (constructing.rst = [] ∧ constructing.busy = true ∧
      constructing.prog[constructing.seq]? = some (.wait 15000) ∧
      constructing.timer = ticksOf constructing.tickNs 15000 ∧ constructing.timer = 15) ∧
    (let s := { constructing with tickNs := 0, timer := 0 };
      s.rst = [] ∧ s.busy = true ∧ s.prog[s.seq]? = some (.wait 15000) ∧
      s.timer = ticksOf s.tickNs 15000) := by decide

/-- The hypotheses of TransportAnswerMovesTheWrite, one state for each answer, and of the answer ok one
for each kind of following micro-op. -/
theorem witness_TransportAnswerMovesTheWrite :
    (constructingTx.rst = [] ∧ constructingTx.busy = true ∧
      constructingTx.prog[constructingTx.seq]? = some (.tx 0x30) ∧ constructingTx.txValid = true ∧
      constructingTx.txreg = 0x30 ∧ constructingTx.answers = [] ∧
      constructingTx.prog[constructingTx.seq + 1]? = some (.wait 1)) ∧
    ({ constructingTx with answers := [.notYet] } : State).answers = .notYet :: [] ∧
    ({ constructingTx with answers := [.ok] } : State).answers = .ok :: [] ∧
    (let s := { constructingTx with prog := [.wait 1, .wait 1, .tx 0x30, .tx 0x31] };
      s.prog[s.seq]? = some (.tx 0x30) ∧ s.prog[s.seq + 1]? = some (.tx 0x31)) ∧
    (let s := { constructingTx with prog := [.wait 1, .wait 1, .tx 0x30] };
      s.prog[s.seq]? = some (.tx 0x30) ∧ s.prog[s.seq + 1]? = none) := by decide

theorem witness_FailingWriteAbortsTheCommand :
    let s := { constructingTx with answers := [.fail, .ok] }
    s.rst = [] ∧ s.busy = true ∧ s.prog[s.seq]? = some (.tx 0x30) ∧ s.txValid = true ∧
    s.txreg = 0x30 ∧ s.answers = .fail :: [.ok] := by decide

theorem witness_UnansweredWriteHangsForEver : Hung presenting ∧ presenting.rst = [] := by decide

theorem witness_EveryStepKeepsTheInvariant :
    EngineInv asked ∧ step asked = .next constructing ∧ EngineInv homing ∧ step homing = .next presenting :=
  ⟨inv_asked, rfl, inv_homing, rfl⟩

/-- Every case of the lifecycle: reset, acceptance, completion, failure. -/
theorem witness_LifecycleChangesOnlyAsListed :
    (∃ s t, EngineInv s ∧ step s = .next t ∧ s.life = .ready ∧ t.life = .unconfigured) ∧
    (∃ s t, EngineInv s ∧ step s = .next t ∧ s.life = .unconfigured ∧ t.life = .initialising) ∧
    (∃ s t, EngineInv s ∧ step s = .next t ∧ s.life = .initialising ∧ t.life = .ready) ∧
    (∃ s t, EngineInv s ∧ step s = .next t ∧ s.life = .initialising ∧ t.life = .unconfigured) :=
  ⟨⟨_, _, inv_inputs inv_ready [true] [] [] [], rfl, rfl, rfl⟩,
    ⟨_, _, inv_asked, rfl, rfl, rfl⟩,
    ⟨_, _, inv_constructingEnd, rfl, rfl, rfl⟩,
    ⟨_, _, inv_inputs inv_constructingTx [] [] [] [.fail], rfl, rfl, rfl⟩⟩

/-- FAULT is set by a failing write, cleared by reset and by an accepted CONSTRUCT. -/
theorem witness_FaultIsSticky :
    (∃ s t, step s = .next t ∧ s.fault = false ∧ t.fault = true) ∧
    (∃ s t, step s = .next t ∧ s.fault = true ∧ t.fault = false ∧ s.rst.headD false = true) ∧
    (∃ s t, step s = .next t ∧ s.fault = true ∧ t.fault = false ∧ s.rst.headD false = false) :=
  ⟨⟨{ constructingTx with answers := [.fail] }, _, rfl, rfl, rfl⟩,
    ⟨{ ready with fault := true, rst := [true] }, _, rfl, rfl, rfl, rfl⟩,
    ⟨{ asked with fault := true }, _, rfl, rfl, rfl, rfl⟩⟩

/-- PM, BL and MODE each change somewhere. -/
theorem witness_ConnectionRegistersHaveTheirWriters :
    (∃ s t, step s = .next t ∧ s.rst.headD false = false ∧ t.pm ≠ s.pm ∧ t.mode ≠ s.mode) ∧
    (∃ s t, step s = .next t ∧ s.rst.headD false = false ∧ t.bl ≠ s.bl) ∧
    (∃ s t, step s = .next t ∧ s.rst.headD false = false ∧ s.life = .ready ∧ t.mode ≠ s.mode) ∧
    (∃ s t x, step s = .next t ∧ s.rst.headD false = false ∧ s.issue = some x ∧
      t.mode ≠ s.mode) :=
  ⟨⟨asked, _, rfl, rfl, by decide, by decide⟩,
    ⟨{ ready with words := [0x0B000000] }, _, rfl, rfl, by decide⟩,
    ⟨{ ready with taking := some ⟨0x02000001, []⟩, payload := [0x05] }, _, rfl, rfl, rfl, by decide⟩,
    ⟨{ ready with issue := some (.setter 0x05) }, _, _, rfl, rfl, rfl, by decide⟩⟩

theorem witness_UnwrittenRegistersAreNotObservable :
    asked.life = .unconfigured ∧ asked.busy = false ∧ asked.issue = none := by decide

theorem witness_ParametersNeverChange : step asked = .next constructing := rfl

theorem witness_TraceGrowsByTheCurrentMicroOp :
    (∃ s t, EngineInv s ∧ step s = .next t ∧ t.trace = s.trace ∧ s.busy = false) ∧
    (∃ s t, EngineInv s ∧ step s = .next t ∧ t.trace = s.trace ∧ s.busy = true ∧
      s.rst.headD false = false) ∧
    (∃ s t, EngineInv s ∧ step s = .next t ∧ t.trace = s.trace ++ [.wait 1]) ∧
    (∃ s t, EngineInv s ∧ step s = .next t ∧ t.trace = s.trace ++ [.txFail 0x30]) :=
  ⟨⟨_, _, inv_asked, rfl, rfl, rfl⟩, ⟨_, _, inv_constructing, rfl, rfl, rfl, rfl⟩,
    ⟨_, _, inv_homing, rfl, rfl⟩,
    ⟨_, _, inv_inputs inv_constructingTx [] [] [] [.fail], rfl, rfl⟩⟩

theorem witness_SentBytesAreWriteFrames :
    (∃ s t, EngineInv s ∧ step s = .next t ∧ t.trace = s.trace ++ [.tx 0x30]) ∧
    (∃ s t, EngineInv s ∧ step s = .next t ∧ t.trace = s.trace ++ [.txFail 0x30]) :=
  ⟨⟨_, _, inv_inputs inv_constructingTx [] [] [] [.ok], rfl, rfl⟩,
    ⟨_, _, inv_inputs inv_constructingTx [] [] [] [.fail], rfl, rfl⟩⟩

theorem witness_AnsweredCommandPerformsItsProgram : ∃ (s : State) (ds : List Nat), EngineInv s ∧
    s.busy = true ∧ s.rst = [] ∧ ds.length = (txBytes (s.prog.drop s.seq)).length ∧
    s.answers = okAfter ds ++ [] ∧ s.answers.length = 38 ∧ s.answers.head? = some .notYet :=
  ⟨_, 2 :: List.replicate 35 0, inv_inputs inv_constructing [] [] []
    (.notYet :: .notYet :: List.replicate 36 .ok), by decide⟩

theorem witness_FirstFailureCutsTheProgram : ∃ s : State, EngineInv s ∧ s.busy = true ∧ s.rst = [] ∧
    s.prog.drop s.seq = [.wait 1, .tx 0x00, .wait 1] ++ .tx 0x04 :: s.prog.drop 4 ∧
    [1].length = (txBytes [.wait 1, .tx 0x00, .wait 1]).length ∧
    s.answers = okAfter [1] ++ List.replicate 1 .notYet ++ .fail :: [] :=
  ⟨_, inv_inputs inv_homing [] [] [] [.notYet, .ok, .notYet, .fail], by decide⟩

theorem witness_ConstructEndsReady : ∃ s : State, EngineInv s ∧ s.cfg = Config.spec ∧ s.rst = [] ∧
    s.busy = false ∧ s.rspValid = false ∧ s.taking = none ∧ s.words = [0x01000009] ∧
    s.payload = bytesA ++ [] ∧ bytesA.length = (nOf 0x01000009).toNat ∧
    decode (.command 0x01000009 bytesA) = .ok (.construct pinA []) ∧
    validatePinMap pinA = some mapA ∧ (1 :: List.replicate 35 0).length = 36 ∧
    s.answers = okAfter (1 :: List.replicate 35 0) ++ [] :=
  ⟨_, inv_inputs inv_reset [] [0x01000009] bytesA (.notYet :: List.replicate 36 .ok), by decide⟩

/-- At both ends of the range of the number of writes before the failing one. -/
theorem witness_FailedConstructLeavesNoConnection :
    (∃ s : State, EngineInv s ∧ s.cfg = Config.spec ∧ s.rst = [] ∧ s.busy = false ∧
      s.rspValid = false ∧ s.taking = none ∧ s.words = [0x01000009] ∧ s.payload = bytesA ++ [] ∧
      bytesA.length = (nOf 0x01000009).toNat ∧
      decode (.command 0x01000009 bytesA) = .ok (.construct pinA []) ∧
      validatePinMap pinA = some mapA ∧ ([] : List Nat).length < 36 ∧
      s.answers = okAfter [] ++ List.replicate 1 .notYet ++ .fail :: []) ∧
    (∃ s : State, EngineInv s ∧ s.taking = none ∧ s.words = [0x01000009] ∧
      s.payload = bytesA ++ [] ∧ (List.replicate 35 0).length < 36 ∧
      s.answers = okAfter (List.replicate 35 0) ++ List.replicate 0 .notYet ++ .fail :: []) :=
  ⟨⟨_, inv_inputs inv_reset [] [0x01000009] bytesA [.notYet, .fail], by decide⟩,
    ⟨_, inv_inputs inv_reset [] [0x01000009] bytesA (List.replicate 35 .ok ++ [.fail]), by decide⟩⟩

/-- FAULT is no part of the invariant. -/
theorem inv_faulted {s : State} (h : EngineInv s) : EngineInv { s with fault := true } :=
  ⟨h.noIssue, h.pinMap, h.held, h.masks, h.busyLife, h.initialising, h.busyResponse, h.position,
    h.taking, h.presented, h.timerIdle, h.payload, h.frames, h.length⟩

/-- Each output rises and falls, by each of the listed events. -/
theorem witness_StatusOutputsMoveOnlyAsListed :
    (∃ s t, EngineInv s ∧ step s = .next t ∧ s.stBusy = false ∧ t.stBusy = true) ∧
    (∃ s t, EngineInv s ∧ step s = .next t ∧ s.stBusy = true ∧ t.stBusy = false ∧
      s.stReady = false ∧ t.stReady = true) ∧
    (∃ s t, EngineInv s ∧ step s = .next t ∧ s.rst.headD false = true ∧ s.stBusy = true ∧
      s.stReady = true ∧ t.stBusy = false ∧ t.stReady = false) ∧
    (∃ s t, EngineInv s ∧ step s = .next t ∧ s.rst.headD false = false ∧ s.stReady = true ∧
      t.stReady = false) ∧
    (∃ s t, EngineInv s ∧ step s = .next t ∧ s.stFault = false ∧ t.stFault = true) ∧
    (∃ s t, EngineInv s ∧ step s = .next t ∧ s.rst.headD false = true ∧ s.stFault = true ∧
      t.stFault = false) ∧
    (∃ s t, EngineInv s ∧ step s = .next t ∧ s.rst.headD false = false ∧ s.stFault = true ∧
      t.stFault = false) :=
  ⟨⟨_, _, inv_asked, rfl, rfl, rfl⟩,
    ⟨_, _, inv_constructingEnd, rfl, rfl, rfl, rfl, rfl⟩,
    ⟨_, _, inv_inputs inv_homing [true] [] [] [], rfl, rfl, rfl, rfl, rfl, rfl⟩,
    ⟨_, _, inv_inputs (inv_taking inv_ready ⟨0x01000009, bytesA.take 8⟩ rfl rfl (by decide)) [] []
      (bytesA.drop 8) [], rfl, rfl, rfl, rfl⟩,
    ⟨_, _, inv_inputs inv_constructingTx [] [] [] [.fail], rfl, rfl, rfl⟩,
    ⟨_, _, inv_inputs (inv_faulted inv_homing) [true] [] [] [], rfl, rfl, rfl, rfl⟩,
    ⟨_, _, inv_faulted inv_asked, rfl, rfl, rfl, rfl⟩⟩

/-- An ok, a failing write, a running wait, and a reset with nothing presented. -/
theorem witness_PinsHoldTheLastSuccessfulWrite :
    (∃ s t, EngineInv s ∧ s.rst.headD false = false ∧ step s = .next t ∧ s.txPort = some 0x30 ∧
      s.answers = .ok :: [] ∧ pinsOf s.trace = none ∧ pinsOf t.trace = some 0x30) ∧
    (∃ s t, EngineInv s ∧ s.rst.headD false = false ∧ step s = .next t ∧ s.txPort = some 0x30 ∧
      s.answers = .fail :: []) ∧
    (∃ s t, EngineInv s ∧ s.rst.headD false = false ∧ step s = .next t ∧ s.txPort = none) ∧
    (∃ s t, EngineInv s ∧ s.rst.headD false = true ∧ s.txValid = false ∧ step s = .next t ∧
      s.busy = true) :=
  ⟨⟨_, _, inv_inputs inv_constructingTx [] [] [] [.ok], rfl, rfl, rfl, rfl, rfl, rfl⟩,
    ⟨_, _, inv_inputs inv_constructingTx [] [] [] [.fail], rfl, rfl, rfl, rfl⟩,
    ⟨_, _, inv_homing, rfl, rfl, rfl⟩,
    ⟨_, _, inv_inputs inv_homing [true] [] [] [], rfl, rfl, rfl, rfl⟩⟩

/-- A HOME at its first nibble frame, with either list of answers. -/
theorem witness_CutStrobeLeavesEnableHigh :
    (∃ s : State, EngineInv s ∧ s.busy = true ∧ s.rst = [] ∧
      s.prog.drop s.seq = nibbleOps Config.spec s.pm s.bl false 0x0 ++ s.prog.drop 8 ∧
      s.answers = okAfter [0, 1] ++ List.replicate 1 .notYet ++ .fail :: []) ∧
    (∃ s : State, EngineInv s ∧ s.busy = true ∧ s.rst = [] ∧
      s.prog.drop s.seq = nibbleOps Config.spec s.pm s.bl false 0x0 ++ s.prog.drop 8 ∧
      s.answers = okAfter [0, 0] ++ []) ∧
    mapA.Valid ∧ mapC.Valid :=
  ⟨⟨_, inv_inputs inv_homing [] [] [] [.ok, .notYet, .ok, .notYet, .fail], by decide⟩,
    ⟨_, inv_inputs inv_homing [] [] [] [.ok, .ok], by decide⟩, by decide⟩

/-- A word to take, a payload byte to take, and neither. -/
theorem witness_HandshakesDecideWhatIsTaken :
    (asking.issue = none ∧ asking.cmdReady = true ∧ asking.words ≠ []) ∧
    (asked.issue = none ∧ asked.plReady = true ∧ asked.payload ≠ []) ∧
    (homing.issue = none ∧ homing.cmdReady = false ∧ homing.plReady = false) := by decide

/-- With the payload of a CONSTRUCT, and without one. -/
theorem witness_CommandIsTakenTransferByTransfer :
    (asking.rst = [] ∧ asking.busy = false ∧ asking.rspValid = false ∧ asking.taking = none ∧
      asking.issue = none ∧ asking.words = 0x01000009 :: [] ∧ asking.payload = bytesA ++ [] ∧
      bytesA.length = (nOf 0x01000009).toNat ∧ 8 < bytesA.length ∧
      decode (.command 0x01000009 bytesA) = .ok (.construct pinA [])) ∧
    (let s := { ready with words := [0x08000000] };
      s.rst = [] ∧ s.busy = false ∧ s.rspValid = false ∧ s.taking = none ∧ s.issue = none ∧
      s.words = 0x08000000 :: [] ∧ s.payload = [] ++ [] ∧
      ([] : List Byte).length = (nOf 0x08000000).toNat ∧
      decode (.command 0x08000000 []) = .ok .home) := by decide

end Sys2Proof.Tests
end

section
/-!
PROOFS. What one step can do, said once: it carries out its turn, and taking a command from the host port
leaves the parameters, the other inputs and the observation alone.
-/

namespace Sys2Proof.Machine

open Sys2Proof

/-! ### The outcome of a turn -/

/-- What carrying out a turn answers: `step` is this of the coming turn. -/
def Turn.outcome : Turn → Host.Outcome State Fault Refusal
  | .own t => .next t
  | .command i t => exec i t
  | .issued i t => startIssued (exec i t)

theorem step_eq_outcome (s : State) : step s = s.turn.outcome := by
  unfold step Turn.outcome; cases s.turn <;> rfl

/-- The fields that the host port and the execution of an instruction leave alone: the parameters, the levels
of reset and of rsp_ready, the transport's answers, and the observation. -/
structure State.SameSurroundings (s t : State) : Prop where
  cfg : t.cfg = s.cfg
  tickNs : t.tickNs = s.tickNs
  rst : t.rst = s.rst
  answers : t.answers = s.answers
  rspReady : t.rspReady = s.rspReady
  trace : t.trace = s.trace
  responses : t.responses = s.responses

theorem State.SameOutside.surroundings {s t : State} (h : s.SameOutside t) : s.SameSurroundings t :=
  ⟨h.cfg, h.tickNs, h.rst, h.answers, h.rspReady, h.trace, h.responses⟩

theorem enter_sameSurroundings (s : State) : s.SameSurroundings s.enter := by
  constructor <;> simp

theorem State.SameSurroundings.trans {s t u : State} (h : s.SameSurroundings t)
    (k : t.SameSurroundings u) : s.SameSurroundings u :=
  ⟨k.cfg.trans h.cfg, k.tickNs.trans h.tickNs, k.rst.trans h.rst, k.answers.trans h.answers,
    k.rspReady.trans h.rspReady, k.trace.trans h.trace, k.responses.trans h.responses⟩

/-- An accepted command answers a next state. -/
theorem command_sameSurroundings {s t : State} (i : Instr) (h : s.SameSurroundings t) :
    ∃ u, (Turn.command i t).outcome = .next u ∧ s.SameSurroundings u := by
  obtain ⟨u, hu, hs⟩ := exec_sameOutside i t
  exact ⟨u, hu, h.trans hs.surroundings⟩

/-- An internal operation issued by itself answers a next state. -/
theorem issued_sameSurroundings {s t : State} (i : Instr) (h : s.SameSurroundings t) :
    ∃ u, (Turn.issued i t).outcome = .next u ∧ s.SameSurroundings u := by
  obtain ⟨u, hu, hs⟩ := exec_sameOutside i t
  refine ⟨u.enter, ?_, (h.trans hs.surroundings).trans (enter_sameSurroundings u)⟩
  simp only [Turn.outcome, hu, startIssued]

/-- A transfer on the host port answers a next state, with the surroundings unchanged. -/
theorem gather_sameSurroundings {s t : State} (w : Word) (p : List Byte) (h : s.SameSurroundings t) :
    ∃ u, (t.gather w p).outcome = .next u ∧ s.SameSurroundings u := by
  rcases gather_cases t w p with ⟨_, hg⟩ | ⟨i, _, _, hg⟩ | ⟨_, _, _, hg⟩ <;> rw [hg]
  · exact ⟨_, rfl, h.trans ⟨rfl, rfl, rfl, rfl, rfl, rfl, rfl⟩⟩
  · exact command_sameSurroundings i (h.trans ⟨rfl, rfl, rfl, rfl, rfl, rfl, rfl⟩)
  · exact ⟨_, rfl, h.trans ⟨rfl, rfl, rfl, rfl, rfl, rfl, rfl⟩⟩

/-- An idle engine answers a next state, with the surroundings unchanged. -/
theorem takeNext_sameSurroundings (s : State) :
    ∃ t, s.takeNext.outcome = .next t ∧ s.SameSurroundings t := by
  rcases takeNext_cases s with ⟨_, _, _, h⟩ | ⟨k, b, bs, _, _, h⟩ | ⟨_, i, _, _, _, h⟩ |
    ⟨_, _, _, _, _, h⟩ | ⟨_, _, _, h⟩ | ⟨w, ws, _, _, _, h⟩ <;> rw [h]
  · exact ⟨s, rfl, rfl, rfl, rfl, rfl, rfl, rfl, rfl⟩
  · exact gather_sameSurroundings _ _ ⟨rfl, rfl, rfl, rfl, rfl, rfl, rfl⟩
  · exact issued_sameSurroundings i ⟨rfl, rfl, rfl, rfl, rfl, rfl, rfl⟩
  · exact ⟨_, rfl, rfl, rfl, rfl, rfl, rfl, rfl, rfl⟩
  · exact ⟨s, rfl, rfl, rfl, rfl, rfl, rfl, rfl, rfl⟩
  · exact gather_sameSurroundings _ _ ⟨rfl, rfl, rfl, rfl, rfl, rfl, rfl⟩

/-- Everything a step can do: reset, one micro-op, one offer of the response, or one transfer on the host
port. -/
theorem step_cases (s : State) :
    (s.resetAsserted = true ∧ step s = .next s.popReset.hardReset) ∨
    (s.resetAsserted = false ∧ s.busy = true ∧ step s = .next s.popReset.runMicro) ∨
    (s.resetAsserted = false ∧ s.busy = false ∧ s.rspValid = true ∧
      step s = .next s.popReset.offer) ∨
    (s.resetAsserted = false ∧ s.busy = false ∧ s.rspValid = false ∧
      ∃ t, step s = .next t ∧ s.popReset.SameSurroundings t) := by
  rw [step_eq_outcome]
  rcases turn_cases s with ⟨hr, ht⟩ | ⟨hr, hb, ht⟩ | ⟨hr, hb, hv, ht⟩ | ⟨hr, hb, hv, ht⟩ <;> rw [ht]
  · exact .inl ⟨hr, rfl⟩
  · exact .inr (.inl ⟨hr, hb, rfl⟩)
  · exact .inr (.inr (.inl ⟨hr, hb, hv, rfl⟩))
  · exact .inr (.inr (.inr ⟨hr, hb, hv, takeNext_sameSurroundings s.popReset⟩))

/-! ### The offer of a response -/

@[simp] theorem offer_cfg (s : State) : s.offer.cfg = s.cfg := by
  unfold State.offer; split <;> rfl
@[simp] theorem offer_tickNs (s : State) : s.offer.tickNs = s.tickNs := by
  unfold State.offer; split <;> rfl
@[simp] theorem offer_trace (s : State) : s.offer.trace = s.trace := by
  unfold State.offer; split <;> rfl

/-! ### The scope of the machine: every state goes on, and no step changes a parameter -/

/-- Settles O41: each of the four things a step can do is a next state. -/
theorem everyStateHasANextState : Obligations.EveryStateHasANextState := by
  intro s
  rcases step_cases s with ⟨_, h⟩ | ⟨_, _, h⟩ | ⟨_, _, _, h⟩ | ⟨_, _, _, t, h, _⟩
  · exact ⟨_, h⟩
  · exact ⟨_, h⟩
  · exact ⟨_, h⟩
  · exact ⟨t, h⟩

/-- Settles O48: none of the four things a step can do writes the configuration or the tick period. -/
theorem parametersNeverChange : Obligations.ParametersNeverChange := by
  intro s t ht
  rcases step_cases s with ⟨_, h⟩ | ⟨_, _, h⟩ | ⟨_, _, _, h⟩ | ⟨_, _, _, u, h, hu⟩ <;>
    obtain rfl := Host.Outcome.next.inj (h.symm.trans ht)
  · simp
  · simp
  · simp
  · exact ⟨hu.cfg, hu.tickNs⟩

end Sys2Proof.Machine
end

section
/-!
PROOFS. One micro-op of a running command: the event it adds, the ticks of a WAIT, and the looks at the
transport of a TX.
-/

namespace Sys2Proof.Machine

open Sys2Proof

/-! ### The event of a micro-op -/

/-- A step of a running command leaves the trace, PROG and SEQ alone, or performs the micro-op at SEQ, or
records its failure, which ends the command. -/
theorem runMicro_trace {s : State} (hpos : s.seq < s.prog.length)
    (htx : ∀ b, s.prog[s.seq]? = some (.tx b) → s.txreg = b) :
    (s.runMicro.trace = s.trace ∧ s.runMicro.seq = s.seq) ∨
    ∃ m, s.prog[s.seq]? = some m ∧
      ((s.runMicro.trace = s.trace ++ [m.event] ∧ s.runMicro.seq = s.seq + 1) ∨
       (∃ b, m = .tx b ∧ s.runMicro.trace = s.trace ++ [.txFail b] ∧ s.runMicro.seq = s.seq ∧
        s.runMicro.busy = false)) := by
  rcases runMicro_cases s with ⟨hm, _⟩ | ⟨t, _, _, h⟩ | ⟨t, hm, _, h⟩ | ⟨b, _, _, h⟩ |
    ⟨b, rest, _, _, h⟩ | ⟨b, rest, hm, _, h⟩ | ⟨b, rest, hm, _, h⟩
  · exact absurd hpos (by simpa using hm)
  · exact .inl (by rw [h]; exact ⟨rfl, rfl⟩)
  · exact .inr ⟨_, hm, .inl (by simp [h, MicroOp.event])⟩
  · exact .inl (by rw [h]; exact ⟨rfl, rfl⟩)
  · exact .inl (by rw [h]; exact ⟨rfl, rfl⟩)
  · exact .inr ⟨_, hm, .inl (by simp [h, MicroOp.event, htx b hm])⟩
  · exact .inr ⟨_, hm, .inr ⟨b, rfl, by simp [h, htx b hm]⟩⟩

/-- Under the invariant the byte in TXREG is the one of the TX at SEQ. -/
theorem txreg_of_inv {s : State} (hi : EngineInv s) (hb : s.busy = true) {b : Byte}
    (hm : s.prog[s.seq]? = some (.tx b)) : s.txreg = b :=
  ((hi.presented b).mpr ⟨hb, hm⟩).2

/-- Settles O49: only a step of a running command adds to the trace, and it adds the micro-op at SEQ. -/
theorem traceGrowsByTheCurrentMicroOp : Obligations.TraceGrowsByTheCurrentMicroOp := by
  intro s t hi ht
  rcases step_cases s with ⟨hr, h⟩ | ⟨hr, hb, h⟩ | ⟨hr, hb, _, h⟩ | ⟨hr, hb, _, u, h, hu⟩ <;>
    obtain rfl := Host.Outcome.next.inj (h.symm.trans ht)
  · have hr' : s.rst.headD false = true := hr
    exact .inl ⟨rfl, fun _ hf => absurd (hr'.symm.trans hf) (by decide)⟩
  · have hrun := runMicro_trace (s := s.popReset) (hi.position hb) (fun _ => txreg_of_inv hi hb)
    rcases hrun with ⟨htr, hseq⟩ | hm
    · exact .inl ⟨htr, fun _ _ => ⟨by simp, hseq⟩⟩
    · exact .inr ⟨hb, hr, by simp, hm⟩
  · exact .inl ⟨by simp, fun hf => by simp [hb] at hf⟩
  · exact .inl ⟨hu.trace, fun hf => by simp [hb] at hf⟩

/-! ### The number of ticks -/

/-- The tick count of a delay is its ceiling (R36). -/
theorem ticksOf_ceil {tick : Nat} (t : Nat) (h : 0 < tick) :
    t * 1000 ≤ ticksOf tick t * tick ∧ ticksOf tick t * tick < t * 1000 + tick := by
  have hdiv := Nat.div_add_mod (t * 1000 + (tick - 1)) tick
  have hmod := Nat.mod_lt (t * 1000 + (tick - 1)) h
  unfold ticksOf
  rw [Nat.mul_comm _ tick]
  omega

/-! ### A command in the middle of its program -/

/-- The micro-ops `l` from SEQ on have been performed, the transport's answers are `rest`, the last byte in
TXREG is `b`, and no micro-op has been begun. -/
@[simps] def State.performed (s : State) (l : List MicroOp) (rest : List TxAnswer) (b : Byte) : State :=
  { s with
    seq := s.seq + l.length
    timer := 0
    txreg := b
    txValid := false
    answers := rest
    trace := s.trace ++ l.map MicroOp.event }

theorem performed_performed (s : State) (l l' : List MicroOp) (r r' : List TxAnswer) (b b' : Byte) :
    (s.performed l r b).performed l' r' b' = s.performed (l ++ l') r' b' := by
  simp [State.performed, Nat.add_assoc]

/-- What beginning the next micro-op writes, its end overwrites. -/
theorem enter_performed {s : State} {m : MicroOp} (hm : s.prog[s.seq]? = some m) (l : List MicroOp)
    (r : List TxAnswer) (b : Byte) : s.enter.performed l r b = s.performed l r b := by
  cases m with
  | wait t => rw [enter_at_wait hm]; rfl
  | tx c => rw [enter_at_tx hm]; rfl

theorem enter_busy {s : State} {m : MicroOp} (hm : s.prog[s.seq]? = some m) :
    s.enter.busy = s.busy := by
  cases m with
  | wait t => rw [enter_at_wait hm]; rfl
  | tx c => rw [enter_at_tx hm]; rfl

/-- The micro-op `m` at SEQ has been begun: during a WAIT nothing is presented, during a TX its byte is in
TXREG and TIMER is not running (R36, R37). -/
def State.During (s : State) (m : MicroOp) : Prop :=
  s.prog[s.seq]? = some m ∧
    match m with
    | .wait _ => s.txValid = false
    | .tx b => s.txreg = b ∧ s.timer = 0

/-- The invariant says what a begun micro-op looks like. -/
theorem during_of_inv {s : State} {m : MicroOp} (hi : EngineInv s) (hb : s.busy = true)
    (hm : s.prog[s.seq]? = some m) : s.During m := by
  refine ⟨hm, ?_⟩
  cases m with
  | wait t =>
    by_contra hv
    have htx := ((hi.presented s.txreg).mp ⟨by simpa using hv, rfl⟩).2
    simp [hm] at htx
  | tx b => exact ⟨txreg_of_inv hi hb hm, hi.timerIdle fun t ht => by simp [hm] at ht⟩

/-- Beginning the micro-op at SEQ, with nothing presented and TIMER at rest. -/
theorem during_enter {s : State} {m : MicroOp} (hm : s.prog[s.seq]? = some m)
    (hv : s.txValid = false) (ht : s.timer = 0) : s.enter.During m := by
  cases m with
  | wait t => rw [enter_at_wait hm]; exact ⟨hm, hv⟩
  | tx b => rw [enter_at_tx hm]; exact ⟨hm, rfl, ht⟩

/-! ### Steps of a WAIT -/

/-- A WAIT with more than one tick left counts down. -/
theorem step_countdown {s : State} {t : Nat} (hr : s.rst = []) (hb : s.busy = true)
    (hm : s.prog[s.seq]? = some (.wait t)) (ht : 1 < s.timer) :
    step s = .next { s with timer := s.timer - 1 } := by
  rw [step_busy hr hb]
  simp only [State.runMicro, hm, State.tick]
  rw [if_neg (by omega)]

/-- A WAIT with at most one tick left is done. -/
theorem step_wait {s : State} {t : Nat} (hr : s.rst = []) (hb : s.busy = true)
    (hm : s.prog[s.seq]? = some (.wait t)) (ht : s.timer ≤ 1) :
    step s = .next (({ s with timer := 0 } : State).record (.wait t)).enter := by
  rw [step_busy hr hb]
  simp only [State.runMicro, hm, State.tick]
  rw [if_pos ht]

/-- Before its last tick a WAIT only counts down. -/
theorem runSteps_countdown {s : State} {t : Nat} (hr : s.rst = []) (hb : s.busy = true)
    (hm : s.prog[s.seq]? = some (.wait t)) {j : Nat} (hj : j < max s.timer 1) :
    runSteps j s = .next { s with timer := s.timer - j } := by
  induction j with
  | zero => rfl
  | succ j ih =>
    rw [runSteps_add (ih (by omega)) 1]
    exact runSteps_one (step_countdown (s := { s with timer := s.timer - j }) hr hb hm
      (by simp only; omega))

/-- The ticks left in TIMER, at least one step, end the WAIT. -/
theorem runSteps_wait {s : State} {t : Nat} (hr : s.rst = []) (hb : s.busy = true)
    (hm : s.prog[s.seq]? = some (.wait t)) :
    runSteps (max s.timer 1) s = .next (({ s with timer := 0 } : State).record (.wait t)).enter := by
  obtain ⟨k, hk⟩ : ∃ k, max s.timer 1 = k + 1 := ⟨max s.timer 1 - 1, by omega⟩
  rw [hk, runSteps_add (runSteps_countdown hr hb hm (j := k) (by omega)) 1]
  exact runSteps_one (step_wait (s := { s with timer := s.timer - k }) hr hb hm (by simp only; omega))

/-! ### Looks at the transport -/

/-- Looks without an answer leave everything else as it is. -/
theorem runSteps_notYet {s : State} {b : Byte} (hr : s.rst = []) (hb : s.busy = true)
    (hm : s.prog[s.seq]? = some (.tx b)) {d : Nat} {rest : List TxAnswer}
    (ha : s.answers = List.replicate d .notYet ++ rest) :
    runSteps d s = .next { s with answers := rest } := by
  induction d generalizing s with
  | zero => simp at ha; simp [← ha]
  | succ d ih =>
    have hstep : step s = .next { s with answers := List.replicate d .notYet ++ rest } := by
      rw [step_busy hr hb]
      simp only [State.runMicro, hm, State.poll, ha, List.replicate_succ, List.cons_append]
    rw [runSteps_succ hstep]
    exact ih hr hb hm rfl

/-- The answer ok ends the TX. -/
theorem step_ok {s : State} {b : Byte} {rest : List TxAnswer} (hr : s.rst = []) (hb : s.busy = true)
    (hm : s.prog[s.seq]? = some (.tx b)) (ha : s.answers = .ok :: rest) :
    step s = .next
      (({ s with answers := rest, txValid := false } : State).record (.tx s.txreg)).enter := by
  rw [step_busy hr hb]
  simp only [State.runMicro, hm, State.poll, ha]

/-! ### The duration of a WAIT -/

/-- What TIMER holds when the micro-op at SEQ begins. -/
theorem enter_timer (s : State) : s.enter.timer =
    match s.prog[s.seq]? with
    | some (.wait d) => ticksOf s.tickNs d
    | _ => s.timer := by
  rcases enter_cases s with ⟨hm, h⟩ | ⟨t, hm, h⟩ | ⟨b, hm, h⟩ <;> rw [h, hm] <;> rfl

/-- Settles O37: TIMER is loaded when a WAIT is begun, and the WAIT ends with the tick that finds at most
one in it. -/
theorem waitLastsItsTicks : Obligations.WaitLastsItsTicks := by
  refine ⟨fun _ t h => ticksOf_ceil t h, ?_, ?_⟩
  · intro s b rest t hr hb hm ha hnext
    refine ⟨_, step_ok hr hb hm ha, ?_⟩
    rw [enter_at_wait (t := t) (by simpa using hnext)]
    exact ⟨hb, rfl, rfl, rfl, rfl⟩
  · intro s t hr hb hm ht n
    have hn : s.timer = n := ht
    refine ⟨fun j hj => ?_, _, hn ▸ runSteps_wait hr hb hm, by simp, by simp, by simp, by simp, ?_⟩
    · rw [← hn] at hj ⊢
      exact runSteps_countdown hr hb hm hj
    · exact enter_timer _

end Sys2Proof.Machine
end

section
/-!
PROOFS. Whole programs: with every write answered ok, a running command performs the rest of PROG.
-/

namespace Sys2Proof.Machine

open Sys2Proof

theorem okAfter_append (ds es : List Nat) : okAfter (ds ++ es) = okAfter ds ++ okAfter es := by
  induction ds with
  | nil => rfl
  | cons d ds ih => simp [okAfter, ih]

/-- A begun micro-op is performed, a TX once its answer ok has come. -/
theorem runSteps_microOp {s : State} {m : MicroOp} {ds : List Nat} {rest : List TxAnswer}
    (hr : s.rst = []) (hb : s.busy = true) (hd : s.During m)
    (hlen : ds.length = (txBytes [m]).length) (ha : s.answers = okAfter ds ++ rest) :
    ∃ n b, runSteps n s = .next (s.performed [m] rest b).enter := by
  obtain ⟨hm, hport⟩ := hd
  cases m with
  | wait t =>
    obtain rfl : ds = [] := List.eq_nil_of_length_eq_zero hlen
    obtain rfl : s.answers = rest := ha
    have hv : s.txValid = false := hport
    refine ⟨_, s.txreg, (runSteps_wait hr hb hm).trans ?_⟩
    simp [State.performed, State.record, MicroOp.event, hv]
  | tx b =>
    obtain ⟨d, rfl⟩ := List.length_eq_one_iff.mp hlen
    obtain ⟨htx, ht⟩ := hport
    have hwait := runSteps_notYet hr hb hm (d := d) (rest := .ok :: rest) (by simpa [okAfter] using ha)
    have hok := step_ok (s := { s with answers := .ok :: rest }) hr hb hm rfl
    refine ⟨d + 1, b, (runSteps_add hwait 1).trans ((runSteps_one hok).trans ?_)⟩
    simp [State.performed, State.record, MicroOp.event, htx, ht]

/-- From a begun micro-op on, any part of the program is performed once its writes have been answered ok, and
the micro-op after it is begun, or the command ended. -/
theorem runSteps_performs {s : State} {m : MicroOp} {ms post : List MicroOp} {ds : List Nat}
    {rest : List TxAnswer} (hr : s.rst = []) (hb : s.busy = true) (hd : s.During m)
    (hprog : s.prog.drop s.seq = m :: ms ++ post)
    (hlen : ds.length = (txBytes (m :: ms)).length) (ha : s.answers = okAfter ds ++ rest) :
    ∃ n b, runSteps n s = .next (s.performed (m :: ms) rest b).enter := by
  induction ms generalizing s m ds with
  | nil => exact runSteps_microOp hr hb hd hlen ha
  | cons m' ms ih =>
    let k := (txBytes [m]).length
    have hsplit : txBytes (m :: m' :: ms) = txBytes [m] ++ txBytes (m' :: ms) :=
      txBytes_append [m] (m' :: ms)
    have hlen' : ds.length = k + (txBytes (m' :: ms)).length := by
      rw [hlen, hsplit, List.length_append]
    have ha' : s.answers = okAfter (ds.take k) ++ (okAfter (ds.drop k) ++ rest) := by
      rw [ha, ← List.append_assoc, ← okAfter_append, List.take_append_drop]
    obtain ⟨n₁, b₁, h₁⟩ := runSteps_microOp hr hb hd (by simp; omega) ha'
    let u := s.performed [m] (okAfter (ds.drop k) ++ rest) b₁
    have hdrop : u.prog.drop u.seq = m' :: ms ++ post := by
      change s.prog.drop (s.seq + 1) = _
      rw [← List.drop_drop, hprog]; rfl
    have hm' : u.prog[u.seq]? = some m' := by
      rw [← List.head?_drop, hdrop]; rfl
    obtain ⟨n₂, b₂, h₂⟩ := ih (s := u.enter) (ds := ds.drop k) (by simpa [u] using hr)
      (by simpa [u] using (enter_busy hm').trans hb) (during_enter hm' rfl rfl)
      (by simpa using hdrop) (by rw [List.length_drop]; omega) (by simp [u])
    refine ⟨n₁ + n₂, b₂, (runSteps_add h₁ n₂).trans (h₂.trans ?_)⟩
    rw [enter_performed hm', performed_performed]; rfl

/-- Settles O51: the rest of PROG is performed, and what is begun after it is the end of the command. -/
theorem answeredCommandPerformsItsProgram : Obligations.AnsweredCommandPerformsItsProgram := by
  intro s ds rest hi hb hr hlen ha
  have hpos := hi.position hb
  have hdrop : s.prog.drop s.seq = s.prog[s.seq] :: s.prog.drop (s.seq + 1) :=
    List.drop_eq_getElem_cons hpos
  have hd := during_of_inv hi hb (List.getElem?_eq_getElem hpos)
  rw [hdrop] at hlen
  obtain ⟨n, b, h⟩ := runSteps_performs (post := []) hr hb hd (by rw [hdrop, List.append_nil]) hlen ha
  have hend : s.seq + (s.prog.drop s.seq).length = s.prog.length := by
    rw [List.length_drop]; omega
  rw [← hdrop, enter_at_end (List.getElem?_eq_none hend.ge)] at h
  refine ⟨n, b, h.trans ?_⟩
  simp only [State.performed, State.complete, hend]
  rfl

end Sys2Proof.Machine
end

section
/-!
PROOFS. The commands of the display.
-/

namespace Sys2Proof.Machine

open Sys2Proof

theorem dataListOps_eq_flatMap (cfg : Config) (pm : PinMap) (bl : Bool) (l : List Byte) :
    dataListOps cfg pm bl l = l.flatMap (byteOps cfg pm bl true) := by
  induction l with
  | nil => rfl
  | cons v l ih => rw [dataListOps, ih]; rfl

/-- DISPLAY_STRING on a ready engine, with a line of the display. -/
theorem displayString_legal {s : State} (hl : s.life = .ready) {line : Byte} (h : line.toNat ≤ 3)
    (column : Byte) (text : List Byte) :
    exec (.displayString line column text) s = .next
      (s.launch (byteOps s.cfg s.pm s.bl false (setAddressByte s.cfg (addressOf s.cfg line column)) ++
        text.flatMap (byteOps s.cfg s.pm s.bl true))) := by
  change execDisplayString line column text s = _
  rw [execDisplayString, whenReady_ready hl, if_neg (by omega), dataListOps_eq_flatMap, instrOps]

/-- DISPLAY_STRING on a ready engine, with a line the display does not have. -/
theorem displayString_illegal {s : State} (hl : s.life = .ready) {line : Byte} (h : 3 < line.toNat)
    (column : Byte) (text : List Byte) :
    exec (.displayString line column text) s = .next (s.raise .invalidAddress) := by
  change execDisplayString line column text s = _
  rw [execDisplayString, whenReady_ready hl, if_pos h]

/-- A line of the address table is legal, and the table holds its base (R7). -/
theorem rowBase_table {line base : Byte}
    (h : (line, base) ∈ [((0 : Byte), (0x00 : Byte)), (1, 0x40), (2, 0x10), (3, 0x54)]) :
    line.toNat ≤ 3 ∧ rowBaseOf Config.spec line = base := by
  simp only [List.mem_cons, List.not_mem_nil, or_false, Prod.mk.injEq] at h
  rcases h with ⟨rfl, rfl⟩ | ⟨rfl, rfl⟩ | ⟨rfl, rfl⟩ | ⟨rfl, rfl⟩ <;> decide

/-- Settles O23: a line of the table launches the set-address byte and the characters, any other line is
refused. -/
theorem displayStringPositionsThenStreams : Obligations.DisplayStringPositionsThenStreams := by
  intro s line column text hc hl
  refine ⟨fun base hbase => ?_, fun h => displayString_illegal hl h column text⟩
  obtain ⟨hline, hrow⟩ := rowBase_table hbase
  rw [displayString_legal hl hline, launch_byte, hc, addressOf, hrow]
  simp only [State.load, State.startWait, hc]
  rfl

end Sys2Proof.Machine
end

section
/-!
PROOFS. What executing an instruction does, one case for each kind of command (30_encoding.md R90, R98), and
from it everything one step can do, one case for each kind of turn. The claims about every step split along
`StepCase`.
-/

namespace Sys2Proof.Machine

open Sys2Proof

/-! ### The rows of the command table -/

/-- The rows of R90, an opcode and the host command it stands for; a text has at most 255 bytes (R87). -/
inductive HostCommand : Byte → Instr → Prop
  | construct (p : PinBytes) (ss : List Setter) : HostCommand 0x01 (.construct p ss)
  | setMode (ss : List Setter) : HostCommand 0x02 (.setMode ss)
  | displayString (line column : Byte) {text : List Byte} (h : text.length ≤ 255) :
    HostCommand 0x03 (.displayString line column text)
  | writeChar (b : Byte) : HostCommand 0x04 (.writeChar b)
  | writeInstruction (b : Byte) : HostCommand 0x05 (.writeInstruction b)
  | setCursorAddress (a : Byte) : HostCommand 0x06 (.setCursorAddress a)
  | clear : HostCommand 0x07 .clear
  | home : HostCommand 0x08 .home
  | shiftLeft : HostCommand 0x09 .shiftLeft
  | shiftRight : HostCommand 0x0A .shiftRight
  | backlightOn : HostCommand 0x0B .backlightOn
  | backlightOff : HostCommand 0x0C .backlightOff
  | loadCustomChars {g : List Byte} (h : g.length ≤ 255) : HostCommand 0x0D (.loadCustomChars g)
  | qEntryIncrement : HostCommand 0x10 .qEntryIncrement
  | qShiftOn : HostCommand 0x11 .qShiftOn
  | qDisplayOn : HostCommand 0x12 .qDisplayOn
  | qCursorOn : HostCommand 0x13 .qCursorOn
  | qBlinkOn : HostCommand 0x14 .qBlinkOn
  | qBusWidth : HostCommand 0x15 .qBusWidth
  | qLineCount : HostCommand 0x16 .qLineCount

theorem withoutPayload_eq_ok {w : Word} {i j : Instr} (h : withoutPayload w i = .ok j) : j = i := by
  unfold withoutPayload at h
  split at h
  · exact (Except.ok.inj h).symm
  · cases h

theorem decodeConstruct_eq_ok {w : Word} {p : List Byte} {i : Instr} (h : decodeConstruct w p = .ok i) :
    ∃ q ss, i = .construct q ss := by
  unfold decodeConstruct at h
  split at h
  · split at h
    · exact ⟨_, _, (Except.ok.inj h).symm⟩
    · cases h
  · cases h

theorem decodeSetMode_eq_ok {p : List Byte} {i : Instr} (h : decodeSetMode p = .ok i) :
    ∃ ss, i = .setMode ss := by
  unfold decodeSetMode at h
  split at h
  · exact ⟨_, (Except.ok.inj h).symm⟩
  · cases h

theorem decodeLoad_eq_ok {w : Word} {p : List Byte} {i : Instr} (h : decodeLoad w p = .ok i) :
    i = .loadCustomChars p := by
  unfold decodeLoad at h
  split at h
  · exact (Except.ok.inj h).symm
  · cases h

/-- The decoder of commands answers with the row of the word's opcode. -/
theorem hostCommand_of_decode {w : Word} {p : List Byte} {i : Instr} (h : decodeCommand w p = .ok i) :
    HostCommand (opOf w) i := by
  unfold decodeCommand at h
  split at h
  · cases h
  next hlen =>
    have htext : p.length ≤ 255 := by have := (nOf w).isLt; omega
    rw [show opOf w = BitVec.ofNat 8 (opOf w).toNat by simp]
    split at h
    case h_21 => cases h
    all_goals rename_i hop; rw [hop]
    case h_1 => obtain ⟨q, ss, rfl⟩ := decodeConstruct_eq_ok h; exact .construct q ss
    case h_2 => obtain ⟨ss, rfl⟩ := decodeSetMode_eq_ok h; exact .setMode ss
    case h_3 => cases h; exact .displayString _ _ htext
    case h_13 => obtain rfl := decodeLoad_eq_ok h; exact .loadCustomChars htext
    all_goals obtain rfl := withoutPayload_eq_ok h; constructor

/-! ### The programs of the commands -/

/-- A program that an EXPAND builds: it begins with the delay `d`, sends frames of the pin map and backlight
only (R135), and is at most the longest program (R22). -/
structure Program (pm : PinMap) (bl : Bool) (d : Nat) (p : List MicroOp) : Prop where
  first : p.head? = some (.wait d)
  frames : ∀ b, .tx b ∈ p → BusByte pm bl b
  length : p.length ≤ 4352

/-- A program is begun with its first delay. -/
theorem launch_program {pm : PinMap} {bl : Bool} {d : Nat} {p : List MicroOp} (h : Program pm bl d p)
    (s : State) : s.launch p = (s.load p).startWait d := by
  obtain ⟨rest, rfl⟩ := List.head?_eq_some_iff.mp h.first
  exact launch_wait s d rest

theorem next_launch {pm : PinMap} {bl : Bool} {d : Nat} {p : List MicroOp} (h : Program pm bl d p)
    (s : State) :
    (.next (s.launch p) : Host.Outcome State Fault Refusal) = .next ((s.load p).startWait d) :=
  congrArg _ (launch_program h s)

theorem length_byteOps (cfg : Config) (pm : PinMap) (bl rs : Bool) (v : Byte) :
    (byteOps cfg pm bl rs v).length = 17 := rfl

theorem length_dataListOps (cfg : Config) (pm : PinMap) (bl : Bool) (l : List Byte) :
    (dataListOps cfg pm bl l).length = 17 * l.length := by
  induction l with
  | nil => rfl
  | cons v l ih => rw [dataListOps, List.length_append, ih, dataOps, length_byteOps, List.length_cons]; omega

theorem program_byteOps (cfg : Config) (pm : PinMap) (bl rs : Bool) (v : Byte) :
    Program pm bl cfg.tSettle (byteOps cfg pm bl rs v) :=
  ⟨rfl, fun _ => busByte_byteOps, by rw [length_byteOps]; omega⟩

/-- One instruction byte and then at most 255 bytes of data (R242, R250). -/
theorem program_stream (cfg : Config) (pm : PinMap) (bl : Bool) (v : Byte) {l : List Byte}
    (h : l.length ≤ 255) :
    Program pm bl cfg.tSettle (instrOps cfg pm bl v ++ dataListOps cfg pm bl l) where
  first := rfl
  frames _ hb := (List.mem_append.mp hb).elim busByte_byteOps busByte_dataListOps
  length := by rw [List.length_append, instrOps, length_byteOps, length_dataListOps]; omega

theorem program_commitOps (cfg : Config) (pm : PinMap) (bl : Bool) (m : Mode) :
    Program pm bl cfg.tSettle (commitOps cfg pm bl m) :=
  ⟨rfl, fun _ => busByte_commitOps, (by decide : 51 ≤ 4352)⟩

/-- The clear instruction and then the commit (R191). -/
theorem program_clear (cfg : Config) (pm : PinMap) (bl : Bool) (v : Byte) (m : Mode) :
    Program pm bl cfg.tSettle (instrOps cfg pm bl v ++ commitOps cfg pm bl m) where
  first := rfl
  frames _ hb := (List.mem_append.mp hb).elim busByte_byteOps busByte_commitOps
  length := (by decide : 68 ≤ 4352)

theorem program_initOps (cfg : Config) (pm : PinMap) (bl : Bool) (m : Mode) :
    Program pm bl cfg.tPower (initOps cfg pm bl m) :=
  ⟨rfl, fun _ => busByte_initOps, (by decide : 105 ≤ 4352)⟩

/-! ### What an accepted command does -/

/-- Everything executing a host command can do: refuse it with an error, configure the engine and begin the
initialization, answer at once, or write its own register, if it has one, and begin a program. -/
inductive CommandEffect (s : State) : Instr → State → Prop
  | refuse (i : Instr) (st : Status) : CommandEffect s i (s.raise st)
  | construct {p : PinBytes} {pm : PinMap} (ss : List Setter) (hv : validatePinMap p = some pm) :
    CommandEffect s (.construct p ss)
      (((s.configure pm ss).load
        (initOps s.cfg pm s.cfg.blInit (applySetters ss Mode.default))).startWait s.cfg.tPower)
  | answer (i : Instr) (v : Byte) (hl : s.life = .ready) : CommandEffect s i (s.answer v)
  | send {i : Instr} (hi : ∀ p ss, i ≠ .construct p ss) {d : Nat} {p : List MicroOp} (hl : s.life = .ready)
      (hp : Program s.pm s.bl d p) :
    CommandEffect s i ((s.load p).startWait d)
  | setMode (ss : List Setter) {d : Nat} {p : List MicroOp} (hl : s.life = .ready)
      (hp : Program s.pm s.bl d p) :
    CommandEffect s (.setMode ss) (((s.withMode (applySetters ss s.mode)).load p).startWait d)
  | backlightOn {d : Nat} {p : List MicroOp} (hl : s.life = .ready) (hp : Program s.pm true d p) :
    CommandEffect s .backlightOn (((s.withBacklight true).load p).startWait d)
  | backlightOff {d : Nat} {p : List MicroOp} (hl : s.life = .ready) (hp : Program s.pm false d p) :
    CommandEffect s .backlightOff (((s.withBacklight false).load p).startWait d)

/-- CONSTRUCT with a valid pin map. -/
theorem construct_valid {p : PinBytes} {pm : PinMap} (hv : validatePinMap p = some pm) (ss : List Setter)
    (s : State) :
    exec (.construct p ss) s = .next
      (((s.configure pm ss).load
        (initOps s.cfg pm s.cfg.blInit (applySetters ss Mode.default))).startWait s.cfg.tPower) := by
  simp only [exec, execConstruct, hv]
  exact next_launch (program_initOps ..) (s.configure pm ss)

/-- CONSTRUCT with an illegal pin map. -/
theorem construct_invalid {p : PinBytes} (hv : validatePinMap p = none) (ss : List Setter) (s : State) :
    exec (.construct p ss) s = .next (s.raise .invalidConfiguration) := by
  simp only [exec, execConstruct, hv]

/-- Every host command but CONSTRUCT begins with the check of the lifecycle (R274). -/
theorem hostCommand_checks {op : Byte} {i : Instr} (h : HostCommand op i) :
    (∃ p ss, i = .construct p ss) ∨ ∃ k, ∀ s, exec i s = s.whenReady k := by
  cases h
  case construct p ss => exact .inl ⟨p, ss, rfl⟩
  all_goals exact .inr ⟨_, fun _ => rfl⟩

section
variable {s : State} {i : Instr} {k : State → Host.Outcome State Fault Refusal}

/-- A checked command is refused, or does what it does on a ready engine. -/
theorem checked_effect (hc : ∀ s, exec i s = s.whenReady k)
    (h : s.life = .ready → ∃ t, k s = .next t ∧ CommandEffect s i t) :
    ∃ t, exec i s = .next t ∧ CommandEffect s i t := by
  by_cases hl : s.life = .ready
  · rw [hc, whenReady_ready hl]; exact h hl
  · rw [hc, whenReady_notReady hl]; exact ⟨_, rfl, .refuse i .notReady⟩

/-- A command that sends a program and writes no register of its own. -/
theorem send_effect {d : Nat} {p : List MicroOp} (hc : ∀ s, exec i s = s.whenReady k)
    (hp : Program s.pm s.bl d p) (hk : k s = .next (s.launch p))
    (hi : ∀ p ss, i ≠ .construct p ss := by nofun) :
    ∃ t, exec i s = .next t ∧ CommandEffect s i t :=
  checked_effect hc fun hl => ⟨_, hk.trans (next_launch hp s), .send hi hl hp⟩

/-- A query. -/
theorem answer_effect {v : Byte} (hc : ∀ s, exec i s = s.whenReady k) (hk : k s = .next (s.answer v)) :
    ∃ t, exec i s = .next t ∧ CommandEffect s i t :=
  checked_effect hc fun hl => ⟨_, hk, .answer i v hl⟩

end

/-- Every host command has one of these effects, in every state. -/
theorem exec_effect {op : Byte} {i : Instr} (h : HostCommand op i) (s : State) :
    ∃ t, exec i s = .next t ∧ CommandEffect s i t := by
  cases h
  case construct p ss =>
    cases hv : validatePinMap p with
    | none => exact ⟨_, construct_invalid hv ss s, .refuse _ _⟩
    | some pm => exact ⟨_, construct_valid hv ss s, .construct ss hv⟩
  case setMode ss =>
    have hp := program_commitOps s.cfg s.pm s.bl (applySetters ss s.mode)
    exact checked_effect (fun _ => rfl) fun hl => ⟨_, next_launch hp _, .setMode ss hl hp⟩
  case backlightOn =>
    have hp := program_byteOps s.cfg s.pm true false s.cfg.nop
    exact checked_effect (fun _ => rfl) fun hl => ⟨_, next_launch hp _, .backlightOn hl hp⟩
  case backlightOff =>
    have hp := program_byteOps s.cfg s.pm false false s.cfg.nop
    exact checked_effect (fun _ => rfl) fun hl => ⟨_, next_launch hp _, .backlightOff hl hp⟩
  case displayString line column text hl =>
    by_cases hline : 3 < line.toNat
    · exact checked_effect (fun _ => rfl) fun _ => ⟨_, if_pos hline, .refuse _ .invalidAddress⟩
    · exact send_effect (fun _ => rfl) (program_stream s.cfg s.pm s.bl _ hl) (if_neg hline)
  case loadCustomChars g hg => exact send_effect (fun _ => rfl) (program_stream s.cfg s.pm s.bl _ hg) rfl
  case clear => exact send_effect (fun _ => rfl) (program_clear s.cfg s.pm s.bl s.cfg.lcdClear s.mode) rfl
  case writeChar b => exact send_effect (fun _ => rfl) (program_byteOps s.cfg s.pm s.bl true b) rfl
  case writeInstruction b => exact send_effect (fun _ => rfl) (program_byteOps s.cfg s.pm s.bl false b) rfl
  case setCursorAddress a => exact send_effect (fun _ => rfl) (program_byteOps s.cfg s.pm s.bl false _) rfl
  case home => exact send_effect (fun _ => rfl) (program_byteOps s.cfg s.pm s.bl false _) rfl
  case shiftLeft => exact send_effect (fun _ => rfl) (program_byteOps s.cfg s.pm s.bl false _) rfl
  case shiftRight => exact send_effect (fun _ => rfl) (program_byteOps s.cfg s.pm s.bl false _) rfl
  all_goals exact answer_effect (fun _ => rfl) rfl

/-! ### What an internal operation issued by itself does -/

theorem exec_setter (x : Setter) (s : State) : exec x.instr s = .next (s.applySetter x) := by
  cases x <;> rfl

/-- An emitted controller instruction writes PROG and nothing else. -/
theorem decodeController_prog {b : Byte} {i : Instr} (h : decodeController b = .ok i) (s : State) :
    ∃ p, exec i s = .next { s with prog := p } := by
  unfold decodeController at h
  repeat' split at h
  all_goals cases h
  all_goals exact ⟨_, rfl⟩

/-- An emitted nibble writes PROG and nothing else. -/
theorem decodeNibble_prog {n : Nibble} {i : Instr} (h : decodeNibble n = .ok i) (s : State) :
    ∃ p, exec i s = .next { s with prog := p } := by
  unfold decodeNibble at h
  split at h
  · cases h; exact ⟨_, rfl⟩
  · split at h
    · cases h; exact ⟨_, rfl⟩
    · cases h

/-- An internal operation is a setter, or writes PROG and nothing else. -/
theorem decodeInternal_cases {x : Internal} {i : Instr} (h : decodeInternal x = .ok i) :
    (∃ b y, x = .setter b ∧ Setter.ofCode b = some y ∧ i = y.instr) ∨
    (∀ s : State, ∃ p, exec i s = .next { s with prog := p }) := by
  cases x with
  | setter b =>
    simp only [decodeInternal] at h
    split at h
    next y hy => exact .inl ⟨b, y, rfl, hy, (Except.ok.inj h).symm⟩
    next => cases h
  | controller b => exact .inr (decodeController_prog h)
  | nibble n => exact .inr (decodeNibble_prog h)

/-! ### Everything one step can do -/

/-- The state with the host's words and payload bytes that remain after a transfer. -/
@[simps] def State.withPort (s : State) (ws : List Word) (bs : List Byte) : State :=
  { s with words := ws, payload := bs }

/-- The word `w` and the payload bytes `q` of the command being taken have been taken. -/
@[simps] def State.midCommand (s : State) (ws : List Word) (bs : List Byte) (w : Word) (q : List Byte) :
    State :=
  { s with words := ws, payload := bs, taking := some ⟨w, q⟩ }

/-- The word and the payload bytes that have been taken after a transfer: a new word without payload yet, or
one more byte of the command being taken (R84). -/
def State.Gathers (s : State) (w : Word) (p : List Byte) : Prop :=
  p = [] ∨ ∃ k b, s.taking = some k ∧ w = k.word ∧ p = k.bytes ++ [b]

/-- What an idle engine's turn is: nothing, a transfer, or an internal operation. -/
theorem takeNext_transfer (s : State) :
    s.takeNext = .own s ∨
    (∃ ws bs w p, s.Gathers w p ∧ s.takeNext = (s.withPort ws bs).gather w p) ∨
    (∃ x i, s.issue = some x ∧ decodeInternal x = .ok i ∧ s.takeNext = .issued i s.beginIssue) ∨
    (s.issue ≠ none ∧ s.takeNext = .own (s.beginIssue.raise .invalidCommand)) := by
  rcases takeNext_cases s with ⟨_, _, _, h⟩ | ⟨k, b, bs, hk, _, h⟩ | ⟨x, i, _, hx, hi, h⟩ |
    ⟨x, _, _, hx, _, h⟩ | ⟨_, _, _, h⟩ | ⟨w, ws, _, _, _, h⟩
  · exact .inl h
  · exact .inr (.inl ⟨s.words, bs, _, _, .inr ⟨k, b, hk, rfl, rfl⟩, h⟩)
  · exact .inr (.inr (.inl ⟨x, i, hx, hi, h⟩))
  · exact .inr (.inr (.inr ⟨by simp [hx], h⟩))
  · exact .inl h
  · exact .inr (.inl ⟨ws, s.payload, w, [], .inl rfl, h⟩)

/-- An engine that may take something: reset is not asserted, nothing runs, no response waits. -/
structure State.Idle (s : State) : Prop where
  noReset : s.resetAsserted = false
  notBusy : s.busy = false
  noResponse : s.rspValid = false

/-- Everything one step can do, with the state it leaves: reset; one micro-op; one offer of the response; and
of an idle engine nothing, a transfer that leaves the payload unfinished, the last transfer of an illegal or
of a legal command, or an internal operation issued by itself. -/
inductive StepCase (s : State) : State → Prop
  | reset (hr : s.resetAsserted = true) : StepCase s s.popReset.hardReset
  | micro (hr : s.resetAsserted = false) (hb : s.busy = true) : StepCase s s.popReset.runMicro
  | offer (hr : s.resetAsserted = false) (hb : s.busy = false) (hv : s.rspValid = true) :
    StepCase s s.popReset.offer
  | rest (hs : s.Idle) : StepCase s s.popReset
  | transfer (hs : s.Idle) {w : Word} {p : List Byte} (ws : List Word) (bs : List Byte)
      (hp : p.length < (nOf w).toNat) :
    StepCase s (s.popReset.midCommand ws bs w p)
  | illegal (hs : s.Idle) {w : Word} {p : List Byte} (ws : List Word) (bs : List Byte)
      (hg : s.Gathers w p) (hp : (nOf w).toNat ≤ p.length) :
    StepCase s (((s.popReset.withPort ws bs).accept w p).raise .invalidCommand)
  | command (hs : s.Idle) {w : Word} {p : List Byte} {i : Instr} {t : State} (ws : List Word)
      (bs : List Byte) (hg : s.Gathers w p) (hp : (nOf w).toNat ≤ p.length) (hi : HostCommand (opOf w) i)
      (ht : s.turn = .command i ((s.popReset.withPort ws bs).accept w p))
      (he : CommandEffect ((s.popReset.withPort ws bs).accept w p) i t) : StepCase s t
  | setter (hs : s.Idle) {b : Byte} {x : Setter} (hi : s.issue = some (.setter b))
      (hx : Setter.ofCode b = some x) : StepCase s (s.popReset.beginIssue.applySetter x).enter
  | emitted (hs : s.Idle) (hi : s.issue ≠ none) (p : List MicroOp) :
    StepCase s ({ s.popReset.beginIssue with prog := p } : State).enter
  | notInternal (hs : s.Idle) (hi : s.issue ≠ none) :
    StepCase s (s.popReset.beginIssue.raise .invalidCommand)

/-- A transfer is one of its three cases. -/
theorem stepCase_gather {s t : State} (hs : s.Idle) {ws : List Word} {bs : List Byte} {w : Word}
    {p : List Byte} (hg : s.Gathers w p) (hturn : s.turn = (s.popReset.withPort ws bs).gather w p)
    (ht : s.turn.outcome = .next t) : StepCase s t := by
  rcases gather_cases (s.popReset.withPort ws bs) w p with ⟨hp, h⟩ | ⟨i, hp, hd, h⟩ | ⟨_, hp, _, h⟩
  · rw [hturn, h] at ht
    cases ht
    exact .transfer hs ws bs hp
  · have hi := hostCommand_of_decode hd
    obtain ⟨u, hu, he⟩ := exec_effect hi ((s.popReset.withPort ws bs).accept w p)
    rw [hturn, h] at ht
    obtain rfl := Host.Outcome.next.inj (hu.symm.trans ht)
    exact .command hs ws bs hg hp hi (hturn.trans h) he
  · rw [hturn, h] at ht
    cases ht
    exact .illegal hs ws bs hg hp

/-- An internal operation issued by itself is one of its two cases. -/
theorem stepCase_issued {s t : State} (hs : s.Idle) {x : Internal} {i : Instr} (hx : s.issue = some x)
    (hi : decodeInternal x = .ok i) (ht : (Turn.issued i s.popReset.beginIssue).outcome = .next t) :
    StepCase s t := by
  simp only [Turn.outcome] at ht
  rcases decodeInternal_cases hi with ⟨b, y, rfl, hy, rfl⟩ | hprog
  · rw [exec_setter] at ht
    cases ht
    exact .setter hs hx hy
  · obtain ⟨p, hp⟩ := hprog s.popReset.beginIssue
    rw [hp] at ht
    cases ht
    exact .emitted hs (by simp [hx]) p

/-- Every step is one of the cases. -/
theorem stepCase_of_step {s t : State} (h : step s = .next t) : StepCase s t := by
  rw [step_eq_outcome] at h
  rcases turn_cases s with ⟨hr, ht⟩ | ⟨hr, hb, ht⟩ | ⟨hr, hb, hv, ht⟩ | ⟨hr, hb, hv, ht⟩
  · rw [ht] at h; cases h; exact .reset hr
  · rw [ht] at h; cases h; exact .micro hr hb
  · rw [ht] at h; cases h; exact .offer hr hb hv
  · have hs : s.Idle := ⟨hr, hb, hv⟩
    rcases takeNext_transfer s.popReset with hn | ⟨ws, bs, w, p, hg, hn⟩ | ⟨x, i, hx, hi, hn⟩ | ⟨hx, hn⟩
    · rw [ht, hn] at h; cases h; exact .rest hs
    · exact stepCase_gather hs hg (ht.trans hn) h
    · rw [ht, hn] at h; exact stepCase_issued hs hx hi h
    · rw [ht, hn] at h; cases h; exact .notInternal hs hx

end Sys2Proof.Machine
end

section
/-!
PROOFS. The invariant (10_state.md R22, R24, R26, R31, R36, R37; 40_frame_encoder.md R135): it holds after
reset, and every step keeps it.
-/

namespace Sys2Proof.Machine

open Sys2Proof

/-! ### The mode masks (R31) -/

theorem or_and_eq_zero {e k m : Byte} (he : e &&& m = 0) (hk : k &&& m = 0) : (e ||| k) &&& m = 0 := by
  rw [BitVec.and_comm, BitVec.and_or_distrib_left, BitVec.and_comm m e, BitVec.and_comm m k, he, hk]; rfl

theorem and_and_eq_zero {e m : Byte} (he : e &&& m = 0) (k : Byte) : e &&& k &&& m = 0 := by
  rw [BitVec.and_assoc, BitVec.and_comm k m, ← BitVec.and_assoc, he]; exact BitVec.zero_and

/-- A setter sets bits inside the masks only. -/
theorem masked_apply {m : Mode} (h : m.Masked) (x : Setter) : (Setter.apply x m).Masked := by
  obtain ⟨he, hd, hf⟩ := h
  cases x
  case entryIncrement | entryShiftOn => exact ⟨or_and_eq_zero he (by decide), hd, hf⟩
  case entryDecrement | entryShiftOff => exact ⟨and_and_eq_zero he _, hd, hf⟩
  case displayOn | cursorOn | blinkOn => exact ⟨he, or_and_eq_zero hd (by decide), hf⟩
  case displayOff | cursorOff | blinkOff => exact ⟨he, and_and_eq_zero hd _, hf⟩
  case eightBitMode | twoLine | dots5x10 => exact ⟨he, hd, or_and_eq_zero hf (by decide)⟩
  case fourBitMode | oneLine | dots5x8 => exact ⟨he, hd, and_and_eq_zero hf _⟩

theorem masked_applySetters {m : Mode} (h : m.Masked) (xs : List Setter) : (applySetters xs m).Masked := by
  induction xs generalizing m with
  | nil => exact h
  | cons x xs ih => exact ih (masked_apply h x)

/-! ### The parts of the invariant -/

/-- The clauses of the invariant that do not speak of a running command. -/
structure State.Sound (s : State) : Prop where
  noIssue : s.issue = none
  pinMap : s.life ≠ .unconfigured → s.pm.Valid
  held : s.life ≠ .unconfigured → s.connHeld = true
  masks : s.mode.Masked
  payload : s.pbuf.length = s.cmdN.toNat

/-- The clauses of the invariant about a running command, but for TIMER and the transport port. -/
structure State.Running (s : State) : Prop where
  sound : s.Sound
  busy : s.busy = true
  life : s.life ≠ .unconfigured
  initialising : s.life = .initialising ↔ s.cmdOp = constructOp
  noResponse : s.rspValid = false
  notTaking : s.taking = none
  frames : ∀ b, .tx b ∈ s.prog → BusByte s.pm s.bl b
  length : s.prog.length ≤ 4352

/-- No program is being performed: TIMER and the transport port are at rest, and no CONSTRUCT is under way. -/
structure State.AtRest (s : State) : Prop where
  sound : s.Sound
  life : s.life ≠ .initialising
  timer : s.timer = 0
  txValid : s.txValid = false

theorem sound_of_inv {s : State} (h : EngineInv s) : s.Sound :=
  ⟨h.noIssue, h.pinMap, h.held, h.masks, h.payload⟩

theorem running_of_inv {s : State} (h : EngineInv s) (hb : s.busy = true) : s.Running where
  sound := sound_of_inv h
  busy := hb
  life := h.busyLife hb
  initialising := by simp [h.initialising, hb]
  noResponse := h.busyResponse hb
  notTaking := by
    cases hk : s.taking with
    | none => rfl
    | some k => exact absurd hb (by simp [(h.taking k hk).1])
  frames := h.frames hb
  length := h.length hb

theorem txValid_of_inv {s : State} (h : EngineInv s)
    (hm : ∀ b, ¬ (s.busy = true ∧ s.prog[s.seq]? = some (.tx b))) : s.txValid = false := by
  by_contra hv
  exact hm _ ((h.presented s.txreg).mp ⟨by simpa using hv, rfl⟩)

theorem atRest_of_inv {s : State} (h : EngineInv s) (hb : s.busy = false) : s.AtRest where
  sound := sound_of_inv h
  life hl := absurd (h.initialising.mp hl).1 (by simp [hb])
  timer := h.timerIdle (by simp [hb])
  txValid := txValid_of_inv h (by simp [hb])

/-- The invariant of an engine that is not busy. -/
theorem inv_of_atRest {s : State} (h : s.AtRest) (hb : s.busy = false)
    (hk : ∀ k, s.taking = some k → s.rspValid = false ∧ k.bytes.length < (nOf k.word).toNat) :
    EngineInv s where
  noIssue := h.sound.noIssue
  pinMap := h.sound.pinMap
  held := h.sound.held
  masks := h.sound.masks
  busyLife := by simp [hb]
  initialising := by simp [hb, h.life]
  busyResponse := by simp [hb]
  position := by simp [hb]
  taking k e := ⟨hb, hk k e⟩
  presented := by simp [hb, h.txValid]
  timerIdle _ := h.timer
  payload := h.sound.payload
  frames := by simp [hb]
  length := by simp [hb]

/-- The invariant of an engine that is in the middle of the micro-op at SEQ. -/
theorem inv_of_running {s : State} (h : s.Running) (hpos : s.seq < s.prog.length)
    (hp : ∀ b, s.txValid = true ∧ s.txreg = b ↔ s.prog[s.seq]? = some (.tx b))
    (ht : (∀ t, s.prog[s.seq]? ≠ some (.wait t)) → s.timer = 0) : EngineInv s where
  noIssue := h.sound.noIssue
  pinMap := h.sound.pinMap
  held := h.sound.held
  masks := h.sound.masks
  busyLife _ := h.life
  initialising := by simp [h.initialising, h.busy]
  busyResponse _ := h.noResponse
  position _ := hpos
  taking k e := by simp [h.notTaking] at e
  presented := by simpa [h.busy] using hp
  timerIdle hw := ht (by simpa [h.busy] using hw)
  payload := h.sound.payload
  frames _ := h.frames
  length _ := h.length

/-! ### Micro-ops -/

/-- The end of a command. -/
theorem inv_complete {s : State} (h : s.Running) (ht : s.timer = 0) (hv : s.txValid = false) (v : Byte) :
    EngineInv (s.complete v) := by
  have hl : (s.complete v).life ≠ .initialising := by
    by_cases hc : s.cmdOp = constructOp
    · simp [hc]
    · simpa [hc] using mt h.initialising.mp hc
  exact inv_of_atRest ⟨⟨h.sound.noIssue, fun _ => h.sound.pinMap h.life, fun _ => h.sound.held h.life,
    h.sound.masks, h.sound.payload⟩, hl, ht, hv⟩ rfl (fun k e => by simp [h.notTaking] at e)

/-- What a step moves while a command runs is not in these clauses. -/
theorem running_sequencer {s : State} (h : s.Running) (seq timer : Nat) (txreg : Byte) (txValid : Bool)
    (answers : List TxAnswer) (trace : List Event) :
    ({ s with seq := seq, timer := timer, txreg := txreg, txValid := txValid, answers := answers,
              trace := trace } : State).Running :=
  ⟨⟨h.sound.noIssue, h.sound.pinMap, h.sound.held, h.sound.masks, h.sound.payload⟩, h.busy, h.life,
    h.initialising, h.noResponse, h.notTaking, h.frames, h.length⟩

/-- Beginning the micro-op at SEQ, or ending the command, with TIMER and the transport port at rest. -/
theorem inv_enter {s : State} (h : s.Running) (ht : s.timer = 0) (hv : s.txValid = false) :
    EngineInv s.enter := by
  rcases enter_cases s with ⟨_, he⟩ | ⟨t, hm, he⟩ | ⟨b, hm, he⟩ <;> rw [he]
  · exact inv_complete h ht hv 0x00
  · have hpos := (List.getElem?_eq_some_iff.mp hm).1
    exact inv_of_running (running_sequencer h ..) hpos (by simp [hm, hv]) fun hw => absurd hm (hw t)
  · have hpos := (List.getElem?_eq_some_iff.mp hm).1
    exact inv_of_running (running_sequencer h ..) hpos (by simp [hm]) fun _ => ht

/-- ABORT. -/
theorem inv_abort {s : State} (h : s.Running) (ht : s.timer = 0) : EngineInv s.abort := by
  have hl : s.abort.life ≠ .initialising := by
    by_cases hc : s.cmdOp = constructOp
    · simp [hc]
    · simpa [hc] using mt h.initialising.mp hc
  exact inv_of_atRest ⟨⟨h.sound.noIssue, fun _ => h.sound.pinMap h.life, fun _ => h.sound.held h.life,
    h.sound.masks, h.sound.payload⟩, hl, ht, rfl⟩ rfl (fun k e => by simp [h.notTaking] at e)

/-- The invariant does not look at the inputs and at the observation. -/
theorem inv_outside {s : State} (h : EngineInv s) (rst : List Bool) (words : List Word)
    (payload : List Byte) (answers : List TxAnswer) (rspReady : List Bool) (responses : List Response) :
    EngineInv { s with rst := rst, words := words, payload := payload, answers := answers,
                       rspReady := rspReady, responses := responses } :=
  ⟨h.noIssue, h.pinMap, h.held, h.masks, h.busyLife, h.initialising, h.busyResponse, h.position,
    h.taking, h.presented, h.timerIdle, h.payload, h.frames, h.length⟩

/-- One step of a running command. -/
theorem inv_runMicro {s : State} (h : EngineInv s) (hb : s.busy = true) : EngineInv s.runMicro := by
  have hrun := running_of_inv h hb
  have atWait {t} (hm : s.prog[s.seq]? = some (.wait t)) : s.txValid = false :=
    txValid_of_inv h (by simp [hm])
  have atTx {b} (hm : s.prog[s.seq]? = some (.tx b)) : s.timer = 0 := h.timerIdle (by simp [hm])
  rcases runMicro_cases s with ⟨hm, _⟩ | ⟨t, hm, _, he⟩ | ⟨t, hm, _, he⟩ | ⟨b, _, _, he⟩ |
    ⟨b, rest, _, _, he⟩ | ⟨b, rest, hm, _, he⟩ | ⟨b, rest, hm, _, he⟩
  · exact absurd (h.position hb) (by simpa using hm)
  · rw [he]
    exact inv_of_running (running_sequencer hrun ..) (h.position hb) (by simp [hm, atWait hm])
      fun hw => absurd hm (hw t)
  · rw [he]; exact inv_enter (running_sequencer hrun ..) rfl (atWait hm)
  · rw [he]; exact h
  · rw [he]; exact inv_outside h ..
  · rw [he]; exact inv_enter (running_sequencer hrun ..) (atTx hm) rfl
  · rw [he]; exact inv_abort (running_sequencer hrun ..) (atTx hm)

/-! ### Reset and the response port -/

/-- Hardware reset (R40). -/
theorem inv_hardReset {s : State} (h : s.issue = none) : EngineInv s.hardReset :=
  inv_of_atRest ⟨⟨h, by simp, by simp, (by decide : Mode.zero.Masked), rfl⟩, by simp, rfl, rfl⟩ rfl (by simp)

/-- The offer of a response. -/
theorem inv_offer {s : State} (h : EngineInv s) (hb : s.busy = false) (hv : s.rspValid = true) :
    EngineInv s.offer := by
  have hr := atRest_of_inv h hb
  have hk : ∀ k, s.taking ≠ some k := fun k e => by simpa [hv] using (h.taking k e).2.1
  unfold State.offer
  split
  · exact inv_of_atRest ⟨⟨h.noIssue, h.pinMap, h.held, h.masks, h.payload⟩, hr.life, hr.timer,
      hr.txValid⟩ hb fun k e => absurd e (hk k)
  · exact inv_outside h ..

/-! ### The host port -/

/-- A transfer on the host port that leaves the payload unfinished. -/
theorem inv_transfer {s : State} (h : s.AtRest) (hb : s.busy = false) (hv : s.rspValid = false) {w : Word}
    {p : List Byte} (hp : p.length < (nOf w).toNat) : EngineInv { s with taking := some ⟨w, p⟩ } :=
  inv_of_atRest ⟨⟨h.sound.noIssue, h.sound.pinMap, h.sound.held, h.sound.masks, h.sound.payload⟩, h.life,
    h.timer, h.txValid⟩ hb fun k e => by cases e; exact ⟨hv, hp⟩

/-- An illegal command. -/
theorem inv_illegal {s : State} (h : s.AtRest) {w : Word} {p : List Byte} (hp : p.length = (nOf w).toNat) :
    EngineInv ((s.accept w p).raise .invalidCommand) :=
  inv_of_atRest ⟨⟨h.sound.noIssue, h.sound.pinMap, h.sound.held, h.sound.masks, hp⟩, h.life,
    h.timer, h.txValid⟩ rfl (by simp)

/-- While the payload of the command being taken is not whole, a transfer gives at most all of it. -/
theorem length_gathers {s : State} (h : EngineInv s) {w : Word} {p : List Byte} (hg : s.Gathers w p) :
    p.length ≤ (nOf w).toNat := by
  rcases hg with rfl | ⟨k, b, hk, rfl, rfl⟩
  · simp
  · have := (h.taking k hk).2.2
    simp; omega

/-! ### Commands -/

/-- A command has been accepted and not been executed yet. -/
structure State.Accepted (s : State) : Prop extends State.AtRest s where
  noResponse : s.rspValid = false
  notTaking : s.taking = none

theorem accepted_of_atRest {s : State} (h : s.AtRest) (hv : s.rspValid = false) {w : Word} {p : List Byte}
    (hp : p.length = (nOf w).toNat) : (s.accept w p).Accepted :=
  ⟨⟨⟨h.sound.noIssue, h.sound.pinMap, h.sound.held, h.sound.masks, hp⟩, h.life, h.timer, h.txValid⟩, hv, rfl⟩

/-- The mode and backlight registers may be written, the modes inside their masks. -/
theorem accepted_registers {s : State} (h : s.Accepted) {m : Mode} (hm : m.Masked) (b : Bool) :
    ({ s with mode := m, bl := b } : State).Accepted :=
  ⟨⟨⟨h.sound.noIssue, h.sound.pinMap, h.sound.held, hm, h.sound.payload⟩, h.life, h.timer, h.txValid⟩,
    h.noResponse, h.notTaking⟩

/-- An accepted command that begins a program. -/
theorem inv_load {s : State} {d : Nat} {p : List MicroOp} (hs : s.Sound) (hl : s.life ≠ .unconfigured)
    (hi : s.life = .initialising ↔ s.cmdOp = constructOp) (hv : s.rspValid = false) (hk : s.taking = none)
    (ht : s.timer = 0) (hx : s.txValid = false) (hp : Program s.pm s.bl d p) :
    EngineInv ((s.load p).startWait d) := by
  rw [← launch_program hp]
  exact inv_enter (s := s.load p) ⟨⟨hs.noIssue, hs.pinMap, hs.held, hs.masks, hs.payload⟩, rfl, hl, hi, hv,
    hk, hp.frames, hp.length⟩ ht hx

/-- A program of a ready engine. -/
theorem inv_send {s : State} (h : s.Accepted) (hl : s.life = .ready) (hop : s.cmdOp ≠ constructOp) {d : Nat}
    {p : List MicroOp} (hp : Program s.pm s.bl d p) : EngineInv ((s.load p).startWait d) :=
  inv_load h.sound (by simp [hl]) (by simp [hl, hop]) h.noResponse h.notTaking h.timer h.txValid hp

/-- The initialization. -/
theorem inv_configure {s : State} (h : s.Accepted) (hop : s.cmdOp = constructOp) {pm : PinMap}
    (hv : pm.Valid) (ss : List Setter) {d : Nat} {p : List MicroOp} (hp : Program pm s.cfg.blInit d p) :
    EngineInv (((s.configure pm ss).load p).startWait d) :=
  inv_load (s := s.configure pm ss) ⟨h.sound.noIssue, fun _ => hv, fun _ => rfl,
    masked_applySetters (by decide) ss, h.sound.payload⟩ (by simp) (by simp [hop]) h.noResponse
    h.notTaking h.timer h.txValid hp

theorem valid_of_validatePinMap {p : PinBytes} {pm : PinMap} (h : validatePinMap p = some pm) : pm.Valid := by
  unfold validatePinMap at h
  split at h
  · cases h
  · split at h
    · cases h; assumption
    · cases h

/-- CONSTRUCT is the row of the table with its opcode (R90). -/
theorem constructOp_iff {op : Byte} {i : Instr} (h : HostCommand op i) :
    op = constructOp ↔ ∃ p ss, i = .construct p ss := by
  cases h <;> simp [constructOp]

/-- Executing an accepted command. -/
theorem inv_command {s t : State} {i : Instr} (h : s.Accepted) (hi : HostCommand s.cmdOp i)
    (he : CommandEffect s i t) : EngineInv t := by
  have hop := constructOp_iff hi
  cases he with
  | refuse _ st =>
    exact inv_of_atRest ⟨⟨h.sound.noIssue, h.sound.pinMap, h.sound.held, h.sound.masks, h.sound.payload⟩,
      h.life, h.timer, h.txValid⟩ rfl (by simp [h.notTaking])
  | construct ss hv =>
    exact inv_configure h (hop.mpr ⟨_, _, rfl⟩) (valid_of_validatePinMap hv) ss (program_initOps ..)
  | answer _ v hl =>
    have hl' : (s.answer v).life = .ready := by simp [State.answer, hl]
    exact inv_of_atRest ⟨⟨h.sound.noIssue, fun _ => h.sound.pinMap (by simp [hl]),
      fun _ => h.sound.held (by simp [hl]), h.sound.masks, h.sound.payload⟩, by simp [hl'], h.timer,
      h.txValid⟩ rfl (by simp [State.answer, h.notTaking])
  | send hi hl hp => exact inv_send h hl (fun hc => let ⟨p, ss, e⟩ := hop.mp hc; hi p ss e) hp
  | setMode ss hl hp =>
    have hm := masked_applySetters h.sound.masks ss
    exact inv_send (accepted_registers h hm s.bl) hl (by simpa using hop) hp
  | backlightOn hl hp =>
    exact inv_send (accepted_registers h h.sound.masks true) hl (by simpa using hop) hp
  | backlightOff hl hp =>
    exact inv_send (accepted_registers h h.sound.masks false) hl (by simpa using hop) hp

/-! ### Every step -/

/-- Settles O43: the state after reset is what reset makes of it. -/
theorem resetMeetsTheInvariant : Obligations.ResetMeetsTheInvariant :=
  inv_hardReset (s := State.reset) rfl

/-- The invariant is kept in each of the cases of a step. -/
theorem inv_stepCase {s t : State} (h : EngineInv s) (hc : StepCase s t) : EngineInv t := by
  have hpop : EngineInv s.popReset := inv_outside h ..
  have port (ws : List Word) (bs : List Byte) : EngineInv (s.popReset.withPort ws bs) := inv_outside h ..
  cases hc with
  | reset => exact inv_hardReset h.noIssue
  | micro _ hb => exact inv_runMicro hpop hb
  | offer _ hb hv => exact inv_offer hpop hb hv
  | rest => exact hpop
  | transfer hs ws bs hp =>
    exact inv_transfer (atRest_of_inv (port ws bs) hs.notBusy) hs.notBusy hs.noResponse hp
  | illegal hs ws bs hg hp =>
    exact inv_illegal (atRest_of_inv (port ws bs) hs.notBusy) ((length_gathers h hg).antisymm hp)
  | command hs ws bs hg hp hi _ he =>
    have hacc := accepted_of_atRest (atRest_of_inv (port ws bs) hs.notBusy) hs.noResponse
      ((length_gathers h hg).antisymm hp)
    exact inv_command hacc hi he
  | setter _ hi => exact absurd hi (by simp [h.noIssue])
  | emitted _ hi => exact absurd h.noIssue hi
  | notInternal _ hi => exact absurd h.noIssue hi

/-- Settles O42: each case of a step keeps the invariant. -/
theorem everyStepKeepsTheInvariant : Obligations.EveryStepKeepsTheInvariant :=
  fun _ _ h ht => inv_stepCase h (stepCase_of_step ht)

theorem inv_runSteps {n : Nat} {s t : State} (h : EngineInv s) (ht : runSteps n s = .next t) :
    EngineInv t := by
  induction n generalizing s with
  | zero => cases ht; exact h
  | succ n ih =>
    obtain ⟨u, hu⟩ := everyStateHasANextState s
    exact ih (everyStepKeepsTheInvariant s u h hu) ((runSteps_succ hu n).symm.trans ht)

end Sys2Proof.Machine
end

section
/-!
PROOFS. The status outputs, the lifecycle and FAULT (10_state.md R23, R24, R33, R39): what one step can do to
BUSY, LIFE and FAULT, said once, and the claims that follow from it.
-/

namespace Sys2Proof.Machine

open Sys2Proof

/-! ### Hardware reset -/

/-- A step with reset asserted. -/
theorem step_reset {s : State} (hr : s.resetAsserted = true) : step s = .next s.popReset.hardReset := by
  simp only [step, State.turn, hr, if_true]

/-- Settles O35: reset wins in every state. -/
theorem resetInputWinsOverEverything : Obligations.ResetInputWinsOverEverything := by
  intro s hr
  exact ⟨_, step_reset hr, by simp⟩

/-- Settles O36: the fields of the state after reset. -/
theorem resetStateIsTheTableOfReset : Obligations.ResetStateIsTheTableOfReset := by
  unfold Obligations.ResetStateIsTheTableOfReset
  simp [State.reset]

/-! ### How a step of a running command ends -/

/-- The command goes on. -/
structure State.GoesOn (s t : State) : Prop where
  busy : t.busy = true
  life : t.life = s.life
  fault : t.fault = s.fault

/-- The command ends with OK; a CONSTRUCT is READY (R155, R225). -/
structure State.Completes (s t : State) : Prop where
  busy : t.busy = false
  rspValid : t.rspValid = true
  rspStatus : t.rspStatus = 0x00
  life : t.life = if s.cmdOp = constructOp then .ready else s.life
  fault : t.fault = s.fault
  seq : s.seq ≤ s.prog.length → t.seq = t.prog.length

/-- The command ends with TRANSPORT_FAILURE, its write having failed; a CONSTRUCT leaves no connection
(R156). -/
structure State.Aborts (s t : State) : Prop where
  busy : t.busy = false
  rspValid : t.rspValid = true
  rspStatus : t.rspStatus = 0x01
  life : t.life = if s.cmdOp = constructOp then .unconfigured else s.life
  fault : t.fault = true
  cause : ∃ b rest, s.prog[s.seq]? = some (.tx b) ∧ s.answers = .fail :: rest

/-- When a micro-op is done, the command goes on or ends. -/
theorem record_ends {s : State} {m : MicroOp} (hb : s.busy = true) (hm : s.prog[s.seq]? = some m)
    (e : Event) (timer : Nat) (txValid : Bool) (answers : List TxAnswer) :
    let u : State := { s with timer := timer, txValid := txValid, answers := answers }
    s.GoesOn (u.record e).enter ∨ s.Completes (u.record e).enter := by
  intro u
  rcases enter_cases (u.record e) with ⟨hn, h⟩ | ⟨t, _, h⟩ | ⟨b, _, h⟩ <;> rw [h]
  · refine .inr ⟨rfl, rfl, rfl, rfl, rfl, fun _ => ?_⟩
    have hpos := (List.getElem?_eq_some_iff.mp hm).1
    have hend : s.prog.length ≤ s.seq + 1 := List.getElem?_eq_none_iff.mp hn
    exact Nat.le_antisymm hpos hend
  · exact .inl ⟨hb, rfl, rfl⟩
  · exact .inl ⟨hb, rfl, rfl⟩

/-- A step of a running command goes on with it, completes it or aborts it. -/
theorem runMicro_ends {s : State} (hb : s.busy = true) :
    s.GoesOn s.runMicro ∨ s.Completes s.runMicro ∨ s.Aborts s.runMicro := by
  rcases runMicro_cases s with ⟨hm, h⟩ | ⟨_, _, _, h⟩ | ⟨_, hm, _, h⟩ | ⟨_, _, _, h⟩ | ⟨_, _, _, _, h⟩ |
    ⟨_, _, hm, _, h⟩ | ⟨b, rest, hm, ha, h⟩ <;> rw [h]
  · have hend := List.getElem?_eq_none_iff.mp hm
    exact .inr (.inl ⟨rfl, rfl, rfl, rfl, rfl, fun hle => Nat.le_antisymm hle hend⟩)
  · exact .inl ⟨hb, rfl, rfl⟩
  · exact (record_ends hb hm ..).imp_right .inl
  · exact .inl ⟨hb, rfl, rfl⟩
  · exact .inl ⟨hb, rfl, rfl⟩
  · exact (record_ends hb hm ..).imp_right .inl
  · exact .inr (.inr ⟨rfl, rfl, rfl, rfl, rfl, b, rest, hm, ha⟩)

/-! ### What one step does to BUSY, LIFE and FAULT -/

@[simp] theorem offer_busy (s : State) : s.offer.busy = s.busy := by
  unfold State.offer; split <;> rfl
@[simp] theorem offer_life (s : State) : s.offer.life = s.life := by
  unfold State.offer; split <;> rfl
@[simp] theorem offer_fault (s : State) : s.offer.fault = s.fault := by
  unfold State.offer; split <;> rfl

/-- LIFE and FAULT change by no command but a valid CONSTRUCT. -/
theorem commandEffect_status {s t : State} {i : Instr} (h : CommandEffect s i t) :
    (t.life = s.life ∧ t.fault = s.fault) ∨
    ∃ p ss pm, i = .construct p ss ∧ validatePinMap p = some pm ∧
      t.busy = true ∧ t.life = .initialising ∧ t.fault = false := by
  cases h with
  | construct ss hv => exact .inr ⟨_, ss, _, rfl, hv, rfl, rfl, rfl⟩
  | answer _ v hl => exact .inl ⟨by simp [State.answer, hl], rfl⟩
  | refuse | send | setMode | backlightOn | backlightOff => exact .inl ⟨rfl, rfl⟩

/-- An internal operation issued by itself is no CONSTRUCT, so its end leaves LIFE alone (log 10). -/
theorem issued_life {s : State} (h : s.cmdOp = 0) : s.enter.life = s.life := by
  rcases enter_cases s with ⟨_, he⟩ | ⟨_, _, he⟩ | ⟨_, _, he⟩ <;> rw [he]
  · simp [h, constructOp]
  · rfl
  · rfl

/-- What a step can do to BUSY, LIFE and FAULT. -/
inductive StatusCase (s t : State) : Prop
  | reset (hr : s.resetAsserted = true) (busy : t.busy = false) (life : t.life = .unconfigured)
      (fault : t.fault = false)
  | same (hr : s.resetAsserted = false) (busy : t.busy = s.busy) (life : t.life = s.life)
      (fault : t.fault = s.fault)
  | command (hs : s.Idle) (i : Instr) (u : State) (turn : s.turn = .command i u) (life : t.life = s.life)
      (fault : t.fault = s.fault)
  | construct (hs : s.Idle) (p : PinBytes) (ss : List Setter) (u : State) (pm : PinMap)
      (turn : s.turn = .command (.construct p ss) u) (valid : validatePinMap p = some pm)
      (busy : t.busy = true) (life : t.life = .initialising) (fault : t.fault = false)
  | issued (hs : s.Idle) (issue : s.issue ≠ none) (life : t.life = s.life) (fault : t.fault = s.fault)
  | completes (hr : s.resetAsserted = false) (hb : s.busy = true) (h : s.Completes t)
  | aborts (hr : s.resetAsserted = false) (hb : s.busy = true) (h : s.Aborts t)

theorem statusCase_of_step {s t : State} (ht : step s = .next t) : StatusCase s t := by
  cases stepCase_of_step ht with
  | reset hr => exact .reset hr rfl rfl rfl
  | micro hr hb =>
    rcases runMicro_ends (s := s.popReset) hb with h | h | h
    · exact .same hr (h.busy.trans hb.symm) h.life h.fault
    · exact .completes hr hb ⟨h.busy, h.rspValid, h.rspStatus, h.life, h.fault, h.seq⟩
    · exact .aborts hr hb ⟨h.busy, h.rspValid, h.rspStatus, h.life, h.fault, h.cause⟩
  | offer hr => exact .same hr (by simp) (by simp) (by simp)
  | rest hs => exact .same hs.noReset rfl rfl rfl
  | transfer hs => exact .same hs.noReset rfl rfl rfl
  | illegal hs => exact .same hs.noReset hs.notBusy.symm rfl rfl
  | command hs _ _ _ _ _ hturn he =>
    rcases commandEffect_status he with ⟨hl, hf⟩ | ⟨p, ss, pm, rfl, hv, hb, hl, hf⟩
    · exact .command hs _ _ hturn hl hf
    · exact .construct hs p ss _ pm hturn hv hb hl hf
  | setter hs hi => exact .issued hs (by simp [hi]) (issued_life rfl) (by simp)
  | emitted hs hi => exact .issued hs hi (issued_life rfl) (by simp)
  | notInternal hs hi => exact .issued hs hi rfl rfl

/-! ### The lifecycle and FAULT -/

/-- Under the invariant LIFE changes at the end of a command only if that is a CONSTRUCT. -/
theorem initialising_of_ends {s : State} (hi : EngineInv s) (hb : s.busy = true) {l l' : Life}
    (h : l = if s.cmdOp = constructOp then l' else s.life) (hl : l ≠ s.life) :
    s.life = .initialising ∧ l = l' := by
  by_cases hc : s.cmdOp = constructOp
  · exact ⟨hi.initialising.mpr ⟨hb, hc⟩, h.trans (if_pos hc)⟩
  · exact absurd (h.trans (if_neg hc)) hl

/-- Settles O44: of what a step can do, four change LIFE. -/
theorem lifecycleChangesOnlyAsListed : Obligations.LifecycleChangesOnlyAsListed := by
  intro s t hi ht hne
  cases statusCase_of_step ht with
  | reset hr _ life => exact .inl ⟨hr, life⟩
  | same _ _ life => exact absurd life hne
  | command _ _ _ _ life => exact absurd life hne
  | issued _ _ life => exact absurd life hne
  | construct hs p ss u pm turn valid busy life =>
    have hl := (atRest_of_inv hi hs.notBusy).life
    exact .inr (.inl ⟨hs.notBusy, hl, life, busy, p, ss, u, pm, turn, valid⟩)
  | completes _ hb h =>
    obtain ⟨hinit, hready⟩ := initialising_of_ends hi hb h.life hne
    have hseq := h.seq (hi.position hb).le
    exact .inr (.inr (.inl ⟨hinit, hready, hb, h.busy, h.rspValid, h.rspStatus, hseq⟩))
  | aborts _ hb h =>
    obtain ⟨hinit, hnone⟩ := initialising_of_ends hi hb h.life hne
    exact .inr (.inr (.inr ⟨hinit, hnone, hb, h.busy, h.rspValid, h.rspStatus, h.fault⟩))

/-- Settles O45: an abort sets FAULT, reset and a valid CONSTRUCT clear it, and nothing else writes it. -/
theorem faultIsSticky : Obligations.FaultIsSticky := by
  intro s t ht
  cases statusCase_of_step ht with
  | reset hr _ _ fault => exact ⟨by simp [fault], fun _ _ => .inl hr⟩
  | construct _ p ss u pm turn valid _ _ fault =>
    exact ⟨by simp [fault], fun _ _ => .inr ⟨p, ss, u, pm, turn, valid⟩⟩
  | aborts _ hb h => exact ⟨fun _ _ => ⟨hb, h.cause⟩, by simp [h.fault]⟩
  | completes _ _ h => simp +contextual [h.fault]
  | same _ _ _ fault => simp +contextual [fault]
  | command _ _ _ _ _ fault => simp +contextual [fault]
  | issued _ _ _ fault => simp +contextual [fault]

/-! ### The status outputs -/

theorem stReady_iff (s : State) : s.stReady = true ↔ s.life = .ready := decide_eq_true_iff

theorem stReady_eq_false_iff (s : State) : s.stReady = false ↔ s.life ≠ .ready := decide_eq_false_iff_not

/-- `st_busy` rises with an acceptance and falls with a response. -/
theorem stBusy_moves {s t : State} (hi : EngineInv s) (h : StatusCase s t) :
    (s.stBusy = false → t.stBusy = true → s.rspValid = false ∧ ∃ i u, s.turn = .command i u) ∧
    (s.stBusy = true → t.stBusy = false →
      s.rst.headD false = true ∨ (s.rspValid = false ∧ t.rspValid = true)) := by
  simp only [State.stBusy]
  cases h with
  | reset hr busy => exact ⟨by simp [busy], fun _ _ => .inl hr⟩
  | same _ busy => simp +contextual [busy]
  | command hs i u turn => exact ⟨fun _ _ => ⟨hs.noResponse, i, u, turn⟩, by simp [hs.notBusy]⟩
  | construct hs p ss u _ turn =>
    exact ⟨fun _ _ => ⟨hs.noResponse, _, u, turn⟩, by simp [hs.notBusy]⟩
  | issued _ issue => exact absurd hi.noIssue issue
  | completes _ hb h => exact ⟨by simp [hb], fun _ _ => .inr ⟨hi.busyResponse hb, h.rspValid⟩⟩
  | aborts _ hb h => exact ⟨by simp [hb], fun _ _ => .inr ⟨hi.busyResponse hb, h.rspValid⟩⟩

/-- `st_ready` rises with the OK of a CONSTRUCT and falls with a valid CONSTRUCT. -/
theorem stReady_moves {s t : State} (hi : EngineInv s) (h : StatusCase s t) :
    (s.stReady = false → t.stReady = true → s.life.code = 1 ∧ s.stBusy = true ∧
      t.stBusy = false ∧ t.rspValid = true ∧ t.rspStatus = 0x00) ∧
    (s.stReady = true → t.stReady = false → s.rst.headD false = true ∨
      ∃ p ss u pm, s.turn = .command (.construct p ss) u ∧ validatePinMap p = some pm) := by
  simp only [stReady_iff, stReady_eq_false_iff]
  cases h with
  | reset hr _ life => exact ⟨by simp [life], fun _ _ => .inl hr⟩
  | same _ _ life => simp +contextual [life]
  | command _ _ _ _ life => simp +contextual [life]
  | issued _ _ life => simp +contextual [life]
  | construct _ p ss u pm turn valid _ life =>
    exact ⟨by simp [life], fun _ _ => .inr ⟨p, ss, u, pm, turn, valid⟩⟩
  | completes _ hb h =>
    refine ⟨fun hne hready => ?_, fun hready hne => ?_⟩
    · obtain ⟨hinit, -⟩ := initialising_of_ends hi hb h.life (by simp [hready, Ne.symm hne])
      exact ⟨by rw [hinit]; rfl, hb, h.busy, h.rspValid, h.rspStatus⟩
    · exact absurd (initialising_of_ends hi hb h.life (by simp [hready, hne])).1 (by simp [hready])
  | aborts _ hb h =>
    refine ⟨fun hne hready => ?_, fun hready hne => ?_⟩
    · have := (initialising_of_ends hi hb h.life (by simp [hready, Ne.symm hne])).2
      simp [hready] at this
    · exact absurd (initialising_of_ends hi hb h.life (by simp [hready, hne])).1 (by simp [hready])

/-- `st_fault` rises with TRANSPORT_FAILURE and falls with a valid CONSTRUCT. -/
theorem stFault_moves {s t : State} (h : StatusCase s t) :
    (s.stFault = false → t.stFault = true → s.stBusy = true ∧ t.stBusy = false ∧
      t.rspValid = true ∧ t.rspStatus = 0x01) ∧
    (s.stFault = true → t.stFault = false → s.rst.headD false = true ∨
      ∃ p ss u pm, s.turn = .command (.construct p ss) u ∧ validatePinMap p = some pm) := by
  simp only [State.stFault]
  cases h with
  | reset hr _ _ fault => exact ⟨by simp [fault], fun _ _ => .inl hr⟩
  | construct _ p ss u pm turn valid _ _ fault =>
    exact ⟨by simp [fault], fun _ _ => .inr ⟨p, ss, u, pm, turn, valid⟩⟩
  | aborts _ hb h =>
    exact ⟨fun _ _ => ⟨hb, h.busy, h.rspValid, h.rspStatus⟩, by simp [h.fault]⟩
  | completes _ _ h => simp +contextual [h.fault]
  | same _ _ _ fault => simp +contextual [fault]
  | command _ _ _ _ _ fault => simp +contextual [fault]
  | issued _ _ _ fault => simp +contextual [fault]

/-- Settles O56: the moves of the three outputs, and what reset leaves. -/
theorem statusOutputsMoveOnlyAsListed : Obligations.StatusOutputsMoveOnlyAsListed := by
  intro s t hi ht
  have h := statusCase_of_step ht
  obtain ⟨busyRises, busyFalls⟩ := stBusy_moves hi h
  obtain ⟨readyRises, readyFalls⟩ := stReady_moves hi h
  obtain ⟨faultRises, faultFalls⟩ := stFault_moves h
  refine ⟨busyRises, busyFalls, readyRises, readyFalls, faultRises, faultFalls, fun hr => ?_⟩
  obtain rfl := Host.Outcome.next.inj ((step_reset hr).symm.trans ht)
  exact ⟨rfl, rfl, rfl⟩

/-- Settles O55: the outputs are the registers they show. -/
theorem statusOutputsShowBusyReadyAndFault : Obligations.StatusOutputsShowBusyReadyAndFault := by
  refine ⟨fun s => ⟨rfl, rfl, ?_⟩, rfl, rfl, rfl, fun l => ?_, rfl, rfl, rfl⟩
  · rw [stReady_iff]
    cases s.life <;> decide
  · cases l <;> decide

end Sys2Proof.Machine
end

section
/-!
PROOFS. The connection registers PM, MODE and BL (10_state.md R25, R31, R32, R40): which steps write them,
that nothing reads them without a connection, and the setters' bits.
-/

namespace Sys2Proof.Machine

open Sys2Proof

/-! ### The writers of PM, BL and MODE -/

@[simp] theorem offer_pm (s : State) : s.offer.pm = s.pm := by
  unfold State.offer; split <;> rfl
@[simp] theorem offer_mode (s : State) : s.offer.mode = s.mode := by
  unfold State.offer; split <;> rfl
@[simp] theorem offer_bl (s : State) : s.offer.bl = s.bl := by
  unfold State.offer; split <;> rfl

/-- Settles O46: the commands that write a connection register are CONSTRUCT, SET_MODE and the backlight
commands; of the other steps only reset and a setter issued by itself write one. -/
theorem connectionRegistersHaveTheirWriters : Obligations.ConnectionRegistersHaveTheirWriters := by
  intro s t ht hr
  cases stepCase_of_step ht with
  | reset hr' => exact absurd (hr'.symm.trans hr) (by decide)
  | micro | offer | rest | transfer | illegal | emitted | notInternal => simp
  | setter _ hi hx => exact ⟨by simp, by simp, fun _ => .inr (.inr ⟨_, _, hi, hx, by simp⟩)⟩
  | command _ _ _ _ _ _ hturn he =>
    cases he with
    | refuse | send => simp
    | answer => simp [State.answer]
    | construct ss hv =>
      exact ⟨fun _ => ⟨_, ss, _, hturn, hv⟩, fun _ => .inl ⟨_, ss, _, hturn, hv, rfl⟩,
        fun _ => .inl ⟨_, ss, _, hturn, hv, rfl⟩⟩
    | setMode ss => exact ⟨by simp, by simp, fun _ => .inr (.inl ⟨ss, _, hturn, rfl⟩)⟩
    | backlightOn => exact ⟨by simp, fun _ => .inr (.inl ⟨_, hturn, rfl⟩), by simp⟩
    | backlightOff => exact ⟨by simp, fun _ => .inr (.inr ⟨_, hturn, rfl⟩), by simp⟩

/-! ### Without a connection nothing reads them -/

/-- Without a presented payload byte nothing is taken. -/
theorem takeNext_noByte {s : State} {k : Taking} (hk : s.taking = some k) (hp : s.payload = []) :
    s.takeNext = .own s := by
  simp only [State.takeNext, hk, State.takeByte, hp]

/-- Without a presented word nothing is taken. -/
theorem takeNext_noWord {s : State} (hk : s.taking = none) (hi : s.issue = none) (hw : s.words = []) :
    s.takeNext = .own s := by
  simp only [State.takeNext, hk, hi, State.takeWord, hw]

/-- A step with a response on the port. -/
theorem step_offer {s : State} (hr : s.resetAsserted = false) (hb : s.busy = false)
    (hv : s.rspValid = true) : step s = .next s.popReset.offer := by
  simp [step, State.turn, hr, hb, hv]

/-- The state with other values in PM, MODE and BL. -/
@[simps] def State.withConnection (s : State) (pm : PinMap) (m : Mode) (b : Bool) : State :=
  { s with pm := pm, mode := m, bl := b }

/-- Two outcomes that are next states, the same or differing in PM, MODE and BL only. -/
def AgreeElsewhere (pm : PinMap) (m : Mode) (b : Bool) (o o' : Host.Outcome State Fault Refusal) : Prop :=
  ∃ t u, o = .next t ∧ o' = .next u ∧ (u = t ∨ u = t.withConnection pm m b)

section
variable (pm : PinMap) (m : Mode) (b : Bool)

/-- A host command on an engine without a connection: CONSTRUCT writes all three, or changes nothing of the
engine, and any other command is refused. -/
theorem agree_command {op : Byte} {i : Instr} (hi : HostCommand op i) {s : State}
    (hl : s.life = .unconfigured) : AgreeElsewhere pm m b (exec i s) (exec i (s.withConnection pm m b)) := by
  rcases hostCommand_checks hi with ⟨p, ss, rfl⟩ | ⟨k, hk⟩
  · cases hv : validatePinMap p with
    | none => exact ⟨_, _, construct_invalid hv ss _, construct_invalid hv ss _, .inr rfl⟩
    | some pm' => exact ⟨_, _, construct_valid hv ss _, construct_valid hv ss _, .inl rfl⟩
  · rw [hk, hk, whenReady_notReady (by simp [hl]), whenReady_notReady (by simp [hl])]
    exact ⟨_, _, rfl, rfl, .inr rfl⟩

/-- A transfer on the host port. -/
theorem agree_gather {s : State} (hl : s.life = .unconfigured) (w : Word) (p : List Byte) :
    AgreeElsewhere pm m b (s.gather w p).outcome ((s.withConnection pm m b).gather w p).outcome := by
  unfold State.gather
  split
  · exact ⟨_, _, rfl, rfl, .inr rfl⟩
  · split
    next hd => exact agree_command pm m b (s := s.accept w p) (hostCommand_of_decode hd) hl
    next => exact ⟨_, _, rfl, rfl, .inr rfl⟩

/-- The turn of an idle engine. -/
theorem agree_takeNext {s : State} (hl : s.life = .unconfigured) (hi : s.issue = none) :
    AgreeElsewhere pm m b s.takeNext.outcome (s.withConnection pm m b).takeNext.outcome := by
  rcases takeNext_cases s with ⟨k, hk, hp, _⟩ | ⟨k, c, bs, hk, hp, _⟩ | ⟨_, _, _, hx, _⟩ |
    ⟨_, _, _, hx, _⟩ | ⟨hk, _, hw, _⟩ | ⟨w, ws, hk, _, hw, _⟩
  · rw [takeNext_noByte hk hp, takeNext_noByte (s := s.withConnection pm m b) hk hp]
    exact ⟨_, _, rfl, rfl, .inr rfl⟩
  · rw [takeNext_byte hk hp, takeNext_byte (s := s.withConnection pm m b) hk hp]
    exact agree_gather pm m b (s := { s with payload := bs }) hl _ _
  · simp [hi] at hx
  · simp [hi] at hx
  · rw [takeNext_noWord hk hi hw, takeNext_noWord (s := s.withConnection pm m b) hk hi hw]
    exact ⟨_, _, rfl, rfl, .inr rfl⟩
  · rw [takeNext_word hk hi hw, takeNext_word (s := s.withConnection pm m b) hk hi hw]
    exact agree_gather pm m b (s := { s with words := ws }) hl _ _

/-- The offer of a response. -/
theorem offer_withConnection (s : State) :
    (s.withConnection pm m b).offer = s.offer.withConnection pm m b := by
  unfold State.offer
  change (if s.hostReady then _ else _) = _
  split <;> rfl

end

/-- Settles O47: reset overwrites the three registers, an offer of a response does not read them, and a
transfer does not without a connection. -/
theorem unwrittenRegistersAreNotObservable : Obligations.UnwrittenRegistersAreNotObservable := by
  intro s pm m b hl hb hi
  change AgreeElsewhere pm m b (step s) (step (s.withConnection pm m b))
  cases hr : s.resetAsserted with
  | true => exact ⟨_, _, step_reset hr, step_reset (s := s.withConnection pm m b) hr, .inl rfl⟩
  | false =>
    cases hv : s.rspValid with
    | true =>
      exact ⟨_, _, step_offer hr hb hv, step_offer (s := s.withConnection pm m b) hr hb hv,
        .inr (offer_withConnection pm m b s.popReset)⟩
    | false =>
      rw [step_eq_outcome, step_eq_outcome, turn_idle hr hb hv,
        turn_idle (s := s.withConnection pm m b) hr hb hv]
      exact agree_takeNext pm m b (s := s.popReset) hl hi

/-! ### The setters as instructions -/

/-- Settles O13: the table of codes and bits, row by row. -/
theorem entryAndDisplaySettersWriteTheirBit : Obligations.EntryAndDisplaySettersWriteTheirBit :=
  ⟨by decide, by decide, by decide, fun _ => ⟨rfl, rfl, rfl, rfl, rfl, rfl, rfl, rfl, rfl, rfl⟩⟩

/-- Settles O14: the table of codes and bits, row by row. -/
theorem functionSettersWriteTheirBit : Obligations.FunctionSettersWriteTheirBit :=
  ⟨by decide, by decide, fun _ => ⟨rfl, rfl, rfl, rfl, rfl, rfl⟩⟩

end Sys2Proof.Machine
end

section
/-!
PROOFS. Taking a command from the host port (30_encoding.md R84), transfer by transfer, up to its execution,
and the whole of a CONSTRUCT (43_init_sequencer.md R220 to R226).
-/

namespace Sys2Proof.Machine

open Sys2Proof

/-! ### One transfer -/

/-- The step that takes a word. -/
theorem step_word {s : State} {w : Word} {ws : List Word} (hr : s.rst.headD false = false)
    (hb : s.busy = false) (hv : s.rspValid = false) (hk : s.taking = none) (hi : s.issue = none)
    (hw : s.words = w :: ws) :
    step s = ((s.popReset.withPort ws s.payload).gather w []).outcome := by
  rw [step_eq_outcome, turn_idle hr hb hv, takeNext_word (s := s.popReset) hk hi hw]
  rfl

/-- The step that takes a payload byte. -/
theorem step_byte {s : State} {k : Taking} {b : Byte} {bs : List Byte} (hr : s.rst.headD false = false)
    (hb : s.busy = false) (hv : s.rspValid = false) (hk : s.taking = some k) (hp : s.payload = b :: bs) :
    step s = ((s.popReset.withPort s.words bs).gather k.word (k.bytes ++ [b])).outcome := by
  rw [step_eq_outcome, turn_idle hr hb hv, takeNext_byte (s := s.popReset) hk hp]
  rfl

/-- Settles O30: either last transfer makes the payload whole, and the legal command is accepted. -/
theorem stepExecutesTheAcceptedCommand : Obligations.StepExecutesTheAcceptedCommand := by
  intro s w p i hr hb hv hd
  refine ⟨fun ws hp hk hi hw => ?_, fun q b rest hp hk hpay => ?_⟩ <;> subst hp
  · rw [step_word hr hb hv hk hi hw, gather_legal _ hd]; rfl
  · rw [step_byte hr hb hv hk hpay, gather_legal _ hd]; rfl

/-- Settles O32: either last transfer makes the payload whole, and the illegal command is answered. -/
theorem illegalCommandIsAnsweredAfterItsPayload : Obligations.IllegalCommandIsAnsweredAfterItsPayload := by
  intro s w p r hr hb hv hlen hd
  refine ⟨fun ws hp hk hi hw => ?_, fun q b rest hp hk hpay => ?_⟩ <;> subst hp
  · rw [step_word hr hb hv hk hi hw, gather_illegal _ hlen hd]; rfl
  · rw [step_byte hr hb hv hk hpay, gather_illegal _ hlen hd]; rfl

/-! ### The whole command -/

theorem popReset_of_released {s : State} (hr : s.rst = []) : s.popReset = s := by
  cases s; simp_all [State.popReset]

section
variable {s : State} {w : Word} {ws : List Word} {p rest : List Byte}

/-- In the middle of a command the next byte is gathered. -/
theorem step_midCommand (hr : s.rst = []) (hb : s.busy = false) (hv : s.rspValid = false) (q : List Byte)
    (b : Byte) (bs : List Byte) :
    step (s.midCommand ws (b :: bs) w q) = ((s.midCommand ws bs w q).gather w (q ++ [b])).outcome := by
  rw [step_byte (s := s.midCommand ws (b :: bs) w q) (by simp [hr]) hb hv rfl rfl,
    popReset_of_released (s := s.midCommand ws (b :: bs) w q) hr]
  rfl

/-- With the word and `j` bytes taken, the others are still on the port. -/
theorem runSteps_takes (hr : s.rst = []) (hb : s.busy = false) (hv : s.rspValid = false)
    (hk : s.taking = none) (hi : s.issue = none) (hw : s.words = w :: ws) (hp : s.payload = p ++ rest)
    (hlen : p.length = (nOf w).toNat) {j : Nat} (hj : j < p.length) :
    runSteps (j + 1) s = .next (s.midCommand ws (p.drop j ++ rest) w (p.take j)) := by
  induction j with
  | zero =>
    refine runSteps_one ?_
    rw [step_word (by rw [hr]; rfl) hb hv hk hi hw, popReset_of_released hr,
      gather_more _ (by simp only [List.length_nil]; omega), hp]
    rfl
  | succ j ih =>
    rw [runSteps_add (ih (by omega)) 1, List.drop_eq_getElem_cons (by omega)]
    refine runSteps_one ((step_midCommand hr hb hv ..).trans ?_)
    rw [List.take_append_getElem, gather_more _ (by simp only [List.length_take]; omega)]
    rfl

/-- One transfer for the word and one for each payload byte accept and execute a legal command. -/
theorem runSteps_accepts (hr : s.rst = []) (hb : s.busy = false) (hv : s.rspValid = false)
    (hk : s.taking = none) (hi : s.issue = none) (hw : s.words = w :: ws) (hp : s.payload = p ++ rest)
    (hlen : p.length = (nOf w).toNat) {i : Instr} (hd : decode (.command w p) = .ok i) :
    runSteps (p.length + 1) s = exec i ((s.withPort ws rest).accept w p) := by
  obtain ⟨t, ht, -⟩ := exec_sameOutside i ((s.withPort ws rest).accept w p)
  rw [ht]
  cases hn : p.length with
  | zero =>
    obtain rfl := List.eq_nil_of_length_eq_zero hn
    refine runSteps_one ?_
    rw [step_word (by rw [hr]; rfl) hb hv hk hi hw, popReset_of_released hr, gather_legal _ hd, hp]
    exact ht
  | succ j =>
    have hlast : p.drop j = [p[j]] := by
      rw [List.drop_eq_getElem_cons (by omega), List.drop_of_length_le (by omega)]
    rw [runSteps_add (runSteps_takes hr hb hv hk hi hw hp hlen (j := j) (by omega)) 1, hlast]
    refine runSteps_one ((step_midCommand hr hb hv ..).trans ?_)
    rw [List.take_append_getElem, ← hn, List.take_length, gather_legal _ hd]
    exact ht

end

/-! ### CONSTRUCT -/

/-- Settles O17: the configured state, with the initialization begun. -/
theorem constructConfiguresAndStartsInitialization :
    Obligations.ConstructConfiguresAndStartsInitialization := by
  intro s p ss pm hc hv
  rw [construct_valid hv, hc]
  simp only [State.configure, State.load, State.startWait, hc]
  rfl

/-- The initialization writes 36 bytes (R223). -/
theorem length_txBytes_initOps (cfg : Config) (pm : PinMap) (bl : Bool) (m : Mode) :
    (txBytes (initOps cfg pm bl m)).length = 36 := rfl

/-- Settles O53: the transfers of the command lead to the configured state, which keeps the invariant, and
from there its program is performed. -/
theorem constructEndsReady : Obligations.ConstructEndsReady := by
  intro s w ws bytes more p ss pm ds rest hinv hc hr hb hv hk hw hp hlen hd hpm hds ha
  have hop : opOf w = constructOp := (constructOp_iff (hostCommand_of_decode hd)).mpr ⟨p, ss, rfl⟩
  have hrun := runSteps_accepts hr hb hv hk hinv.noIssue hw hp hlen hd
  rw [constructConfiguresAndStartsInitialization ((s.withPort ws more).accept w bytes) p ss pm hc hpm] at hrun
  obtain ⟨n, b, h⟩ := answeredCommandPerformsItsProgram _ ds rest (inv_runSteps hinv hrun) rfl hr
    (hds.trans (length_txBytes_initOps ..).symm) ha
  exact ⟨_, _, (runSteps_add hrun n).trans h, if_pos hop, rfl, rfl, rfl, rfl, rfl, rfl, rfl, rfl, rfl, rfl,
    rfl, rfl⟩

end Sys2Proof.Machine
end

section
/-!
PROOFS. Looks at the transport, and the level they leave on the expander's pins (20_memory.md R52, R53;
41_nibble_write.md R150, R156).
-/

namespace Sys2Proof.Machine

open Sys2Proof

/-! ### One look at the transport -/

/-- Settles O38: each answer, and for ok each thing that can stand at the next SEQ. -/
theorem transportAnswerMovesTheWrite : Obligations.TransportAnswerMovesTheWrite := by
  intro s b rest hr hb hm hv htx
  refine ⟨fun ha => ?_, fun ha => ?_, fun ha => ?_⟩
  · rw [step_busy hr hb]
    simp only [State.runMicro, hm, State.poll, ha]
  · rw [step_busy hr hb]
    simp only [State.runMicro, hm, State.poll, ha]
  · subst htx
    refine ⟨fun d hn => ?_, fun c hn => ?_, fun hn => ?_⟩ <;> rw [step_ok hr hb hm ha]
    · rw [enter_at_wait hn]; rfl
    · rw [enter_at_tx hn]; rfl
    · rw [enter_at_end hn]; rfl

/-- The answer fail ends the command. -/
theorem step_fail {s : State} {b : Byte} {rest : List TxAnswer} (hr : s.rst = []) (hb : s.busy = true)
    (hm : s.prog[s.seq]? = some (.tx b)) (ha : s.answers = .fail :: rest) :
    step s = .next ({ s with answers := rest } : State).abort := by
  rw [step_busy hr hb]
  simp only [State.runMicro, hm, State.poll, ha]

/-! ### The pins -/

/-- A byte is on the transport port exactly during its TX (R37). -/
theorem txPort_eq_some {s : State} (hi : EngineInv s) {b : Byte} :
    s.txPort = some b ↔ s.busy = true ∧ s.prog[s.seq]? = some (.tx b) := by
  rw [← hi.presented b, State.txPort]
  cases s.txValid <;> simp

/-- Outside a TX nothing is on the transport port. -/
theorem txPort_eq_none {s : State} (hi : EngineInv s)
    (h : ∀ b, ¬ (s.busy = true ∧ s.prog[s.seq]? = some (.tx b))) : s.txPort = none := by
  simp [State.txPort, txValid_of_inv hi h]

/-- What a step of a running command does to the pins. -/
theorem pinsOf_runMicro {s : State} (hi : EngineInv s) (hb : s.busy = true) :
    pinsOf s.runMicro.trace =
      match s.txPort, s.answers with
      | some b, .ok :: _ => some b
      | _, _ => pinsOf s.trace := by
  rcases runMicro_cases s with ⟨hm, h⟩ | ⟨t, hm, _, h⟩ | ⟨t, hm, _, h⟩ | ⟨b, hm, ha, h⟩ |
    ⟨b, rest, hm, ha, h⟩ | ⟨b, rest, hm, ha, h⟩ | ⟨b, rest, hm, ha, h⟩ <;> rw [h]
  · simp [txPort_eq_none hi (by simp [hm])]
  · simp [txPort_eq_none hi (by simp [hm])]
  · simp [txPort_eq_none hi (by simp [hm])]
  · simp [(txPort_eq_some hi).mpr ⟨hb, hm⟩, ha]
  · simp [(txPort_eq_some hi).mpr ⟨hb, hm⟩, ha]
  · simp [(txPort_eq_some hi).mpr ⟨hb, hm⟩, ha, txreg_of_inv hi hb hm]
  · simp [(txPort_eq_some hi).mpr ⟨hb, hm⟩, ha]

/-- Settles O57: a step of a running command moves the pins by an ok only, and every other step leaves the
trace. -/
theorem pinsHoldTheLastSuccessfulWrite : Obligations.PinsHoldTheLastSuccessfulWrite := by
  refine ⟨rfl, fun s t hi hx ht => ?_⟩
  rcases step_cases s with ⟨hr, h⟩ | ⟨_, hb, h⟩ | ⟨_, hb, _, h⟩ | ⟨_, hb, _, u, h, hu⟩ <;>
    obtain rfl := Host.Outcome.next.inj (h.symm.trans ht)
  · simp [State.txPort, hx hr]
  · exact pinsOf_runMicro (s := s.popReset) (inv_outside hi ..) hb
  · simp [txPort_eq_none hi (by simp [hb])]
  · simp [txPort_eq_none hi (by simp [hb]), hu.trace]

/-! ### A strobe that is cut off -/

/-- The level on the pins is the last write of the later events, if they hold one. -/
theorem pinsOf_append (l l' : List Event) : pinsOf (l ++ l') = (pinsOf l').or (pinsOf l) := by
  induction l' using List.reverseRecOn with
  | nil => simp [pinsOf]
  | append_singleton l' e ih =>
    rw [← List.append_assoc]
    cases e with
    | tx b => rw [pinsOf_append_tx, pinsOf_append_tx]; rfl
    | wait t => rw [pinsOf_append_wait, pinsOf_append_wait, ih]
    | txFail b => rw [pinsOf_append_txFail, pinsOf_append_txFail, ih]

/-- The micro-op after a part of the program from SEQ on. -/
theorem getElem?_of_drop {p l post : List MicroOp} {q : Nat} {m : MicroOp}
    (h : p.drop q = l ++ m :: post) : p[q + l.length]? = some m := by
  rw [← List.getElem?_drop, h]; simp

/-- From a begun micro-op on, a part of the program is performed, and the write after it fails. -/
theorem runSteps_cut {s : State} {m : MicroOp} {ms post : List MicroOp} {b : Byte} {ds : List Nat} {d : Nat}
    {rest : List TxAnswer} (hr : s.rst = []) (hb : s.busy = true) (hd : s.During m)
    (hprog : s.prog.drop s.seq = m :: ms ++ .tx b :: post) (hlen : ds.length = (txBytes (m :: ms)).length)
    (ha : s.answers = okAfter ds ++ List.replicate d .notYet ++ .fail :: rest) :
    ∃ n, runSteps n s = .next (s.performed (m :: ms) rest b).abort := by
  rw [List.append_assoc] at ha
  obtain ⟨n, c, hn⟩ := runSteps_performs hr hb hd hprog hlen ha
  have hm : s.prog[s.seq + (m :: ms).length]? = some (.tx b) := getElem?_of_drop hprog
  let u := (s.performed (m :: ms) (List.replicate d .notYet ++ .fail :: rest) c).present b
  have hu : (s.performed (m :: ms) (List.replicate d .notYet ++ .fail :: rest) c).enter = u :=
    enter_at_tx hm
  have hwait := runSteps_notYet (s := u) hr hb hm (rest := .fail :: rest) rfl
  have hfail := step_fail (s := { u with answers := .fail :: rest }) hr hb hm rfl
  rw [hu] at hn
  exact ⟨_, (runSteps_add hn (d + 1)).trans ((runSteps_add hwait 1).trans (runSteps_one hfail))⟩

/-- Under a valid pin map a base frame has enable low (R132). -/
theorem encodeFrame_enable_low {pm : PinMap} (h : pm.Valid) (bl rs : Bool) (n : Nibble) :
    (encodeFrame pm bl rs n).getLsbD pm.en.val = false := by
  simp only [PinMap.Valid, PinMap.positions, List.nodup_cons, List.mem_cons, not_or] at h
  obtain ⟨⟨-, hrs, -⟩, -, ⟨h4, h5, h6, h7, hbl, -⟩, -⟩ := h
  simp only [encodeFrame, BitVec.getLsbD_or, getLsbD_place, h4, h5, h6, h7, hbl, Ne.symm hrs, decide_false,
    Bool.and_false, Bool.false_and, Bool.or_self]

/-- With the enable mask a frame has enable high. -/
theorem or_enable_high (pm : PinMap) (f : Byte) : (f ||| bit pm.en).getLsbD pm.en.val = true := by
  simp only [BitVec.getLsbD_or, getLsbD_bit, decide_true, Bool.or_true]

/-- Settles O58: the program is performed up to the failing write, or up to the enable hold, in which reset
comes; the last ok was the answer to the frame with enable high. -/
theorem cutStrobeLeavesEnableHigh : Obligations.CutStrobeLeavesEnableHigh := by
  refine ⟨fun s rs n post d₁ d₂ d₃ rest hi hb hr hdrop => ?_, fun pm bl m hv => ?_⟩
  · intro high
    let f := encodeFrame s.pm s.bl rs n
    have hd : s.During (.wait 1) := during_of_inv hi hb (by rw [← List.head?_drop, hdrop]; rfl)
    refine ⟨or_enable_high _ _, fun ha => ?_, fun ha => ?_⟩
    · obtain ⟨k, hk⟩ := runSteps_cut (ms := [.tx f, .wait 1, .tx high, .wait 200, .wait 1]) hr hb hd hdrop
        rfl ha
      exact ⟨k, _, hk, rfl, rfl, rfl, by simp [pinsOf_append, pinsOf, MicroOp.event]⟩
    · obtain ⟨k, c, hk⟩ := runSteps_performs (ms := [.tx f, .wait 1, .tx high])
        (post := .wait 200 :: .wait 1 :: .tx f :: .wait 30 :: post) hr hb hd hdrop rfl ha
      have hm : s.prog[s.seq + 4]? = some (.wait 200) :=
        getElem?_of_drop (l := [.wait 1, .tx f, .wait 1, .tx high]) hdrop
      rw [enter_at_wait hm] at hk
      exact ⟨k, _, _, hk, rfl, hm, rfl, step_reset rfl, rfl,
        by simp [pinsOf_append, pinsOf, MicroOp.event]⟩
  · exact ⟨_, rfl, encodeFrame_enable_low hv bl false 0x3⟩

end Sys2Proof.Machine
end

section
/-!
PROOFS. Writes that fail and writes that are never answered (20_memory.md R53, R54; 41_nibble_write.md R156),
and the rows of LOAD_CUSTOM_CHARS (44_display_api.md R250).
-/

namespace Sys2Proof.Machine

open Sys2Proof

/-! ### The glyph rows as a stream of data -/

/-- Settles O24: the set-CGRAM instruction and the stream of the rows are launched. -/
theorem loadCustomCharsStreamsTheRows : Obligations.LoadCustomCharsStreamsTheRows := by
  intro s g hc hl
  change execLoadCustomChars g s = _
  rw [execLoadCustomChars, whenReady_ready hl, dataListOps_eq_flatMap, instrOps, launch_byte, hc]
  simp only [State.load, State.startWait, hc]
  rfl

/-! ### One write that fails, or is never answered -/

/-- Settles O39: the step is the abort of the command. -/
theorem failingWriteAbortsTheCommand : Obligations.FailingWriteAbortsTheCommand := by
  intro s b rest hr hb hm _ htx ha
  subst htx
  exact step_fail hr hb hm ha

/-- Settles O40: one look without an answer leaves the state as it is, and so does any number of them. -/
theorem unansweredWriteHangsForEver : Obligations.UnansweredWriteHangsForEver := by
  intro s n ⟨hb, hv, hm, ha⟩ hr
  have hstep : step s = .next s := (transportAnswerMovesTheWrite s s.txreg [] hr hb hm hv rfl).1 ha
  induction n with
  | zero => rfl
  | succ n ih => rw [runSteps_succ hstep, ih]

/-! ### The first failure of a program -/

/-- The write at SEQ, answered fail after any number of looks, ends the command. -/
theorem runSteps_fail {s : State} {b : Byte} {d : Nat} {rest : List TxAnswer} (hr : s.rst = [])
    (hb : s.busy = true) (hm : s.prog[s.seq]? = some (.tx b))
    (ha : s.answers = List.replicate d .notYet ++ .fail :: rest) :
    runSteps (d + 1) s = .next ({ s with answers := rest } : State).abort := by
  rw [runSteps_add (runSteps_notYet hr hb hm ha) 1]
  exact runSteps_one (step_fail (s := { s with answers := .fail :: rest }) hr hb hm rfl)

/-- Settles O52: what stands before the failing write is performed, nothing if the write itself is at SEQ, and
the failure aborts the command. -/
theorem firstFailureCutsTheProgram : Obligations.FirstFailureCutsTheProgram := by
  intro s pre post b ds d rest hi hb hr hprog hlen ha
  cases pre with
  | nil =>
    obtain rfl : ds = [] := List.eq_nil_of_length_eq_zero hlen
    have hm : s.prog[s.seq]? = some (.tx b) := getElem?_of_drop hprog
    obtain ⟨-, htx, ht⟩ := during_of_inv hi hb hm
    refine ⟨d + 1, (runSteps_fail hr hb hm ha).trans ?_⟩
    simp only [State.abort, htx, ht, List.map_nil, List.append_nil]
    rfl
  | cons m ms =>
    have hm : s.prog[s.seq]? = some m := getElem?_of_drop (l := []) hprog
    exact runSteps_cut hr hb (during_of_inv hi hb hm) hprog hlen ha

/-! ### A CONSTRUCT that fails -/

/-- A program with more than `k` writes has a write with exactly `k` writes before it. -/
theorem exists_write_after {l : List MicroOp} {k : Nat} (h : k < (txBytes l).length) :
    ∃ pre b post, l = pre ++ .tx b :: post ∧ (txBytes pre).length = k := by
  induction l generalizing k with
  | nil => simp [txBytes] at h
  | cons m l ih =>
    cases m with
    | wait t =>
      obtain ⟨pre, b, post, rfl, hk⟩ := ih h
      exact ⟨.wait t :: pre, b, post, rfl, hk⟩
    | tx c =>
      cases k with
      | zero => exact ⟨[], c, l, rfl, rfl⟩
      | succ k =>
        obtain ⟨pre, b, post, rfl, hk⟩ := ih (Nat.lt_of_succ_lt_succ h)
        exact ⟨.tx c :: pre, b, post, rfl, congrArg Nat.succ hk⟩

/-- Settles O54: the transfers of the command lead to the configured state, which keeps the invariant, and
from there the first failure cuts the initialization. -/
theorem failedConstructLeavesNoConnection : Obligations.FailedConstructLeavesNoConnection := by
  intro s w ws bytes more p ss pm ds d rest hinv hc hr hb hv hk hw hp hlen hd hpm hds ha
  have hop : opOf w = constructOp := (constructOp_iff (hostCommand_of_decode hd)).mpr ⟨p, ss, rfl⟩
  have hrun := runSteps_accepts hr hb hv hk hinv.noIssue hw hp hlen hd
  rw [constructConfiguresAndStartsInitialization ((s.withPort ws more).accept w bytes) p ss pm hc hpm] at hrun
  obtain ⟨pre, b, post, hinit, hpre⟩ := exists_write_after (hds.trans_eq (length_txBytes_initOps ..).symm)
  obtain ⟨n, h⟩ := firstFailureCutsTheProgram _ pre post b ds d rest (inv_runSteps hinv hrun) rfl hr hinit
    hpre.symm ha
  exact ⟨_, _, pre, post, b, (runSteps_add hrun n).trans h, hinit, hpre, if_pos hop, rfl, rfl, rfl, rfl, rfl,
    rfl, rfl, rfl, rfl, rfl, rfl, rfl⟩

end Sys2Proof.Machine
end

section
/-!
PROOFS. The decoder and the encoder (30_encoding.md R85 to R92, R95, R100 to R110): the accepted commands are
the rows of R90, said once, and the claims about the four formats follow from the rows.
-/

namespace Sys2Proof

/-! ### Setter bytes (R92) -/

/-- A byte is the code of a setter exactly up to 0x0F. -/
theorem exists_code_iff (b : Byte) : (∃ x, Setter.code x = b) ↔ b.toNat ≤ 0x0F := by
  constructor
  · rintro ⟨x, rfl⟩
    cases x <;> decide
  · intro hb
    obtain ⟨x, hx⟩ := Option.isSome_iff_exists.mp
      ((ofCode_isSome b).trans (decide_eq_true (Nat.lt_succ_of_le hb)))
    exact ⟨x, code_of_ofCode b x hx⟩

/-- Bytes are the codes of a list of setters exactly when each of them is a setter code. -/
theorem exists_codes_iff (l : List Byte) :
    (∃ ss : List Setter, ss.map Setter.code = l) ↔ ∀ b ∈ l, b.toNat ≤ 0x0F := by
  rw [← Set.mem_range, Set.range_list_map]
  exact forall₂_congr fun b _ => exists_code_iff b

theorem settersOf_eq_ok_iff {l : List Byte} {ss : List Setter} :
    settersOf l = .ok ss ↔ l = ss.map Setter.code :=
  ⟨settersOf_eq_ok, fun h => h ▸ settersOf_codes ss⟩

/-! ### The rows of the command table (R90, R91) -/

/-- The rows of R90 with the fields A and B of the word: the opcode, the payload and the command. The length
of the payload is N (R87). -/
inductive CommandRow (a b : Byte) : Byte → List Byte → Instr → Prop
  | construct (q : PinBytes) (ss : List Setter) :
    CommandRow a b 0x01 (q.toList ++ ss.map Setter.code) (.construct q ss)
  | setMode (ss : List Setter) : CommandRow a b 0x02 (ss.map Setter.code) (.setMode ss)
  | displayString (text : List Byte) : CommandRow a b 0x03 text (.displayString a b text)
  | writeChar : CommandRow a b 0x04 [] (.writeChar a)
  | writeInstruction : CommandRow a b 0x05 [] (.writeInstruction a)
  | setCursorAddress : CommandRow a b 0x06 [] (.setCursorAddress a)
  | clear : CommandRow a b 0x07 [] .clear
  | home : CommandRow a b 0x08 [] .home
  | shiftLeft : CommandRow a b 0x09 [] .shiftLeft
  | shiftRight : CommandRow a b 0x0A [] .shiftRight
  | backlightOn : CommandRow a b 0x0B [] .backlightOn
  | backlightOff : CommandRow a b 0x0C [] .backlightOff
  | loadCustomChars {g : List Byte} (hg : g.length = 64) : CommandRow a b 0x0D g (.loadCustomChars g)
  | qEntryIncrement : CommandRow a b 0x10 [] .qEntryIncrement
  | qShiftOn : CommandRow a b 0x11 [] .qShiftOn
  | qDisplayOn : CommandRow a b 0x12 [] .qDisplayOn
  | qCursorOn : CommandRow a b 0x13 [] .qCursorOn
  | qBlinkOn : CommandRow a b 0x14 [] .qBlinkOn
  | qBusWidth : CommandRow a b 0x15 [] .qBusWidth
  | qLineCount : CommandRow a b 0x16 [] .qLineCount

theorem withoutPayload_eq_ok_iff {w : Word} {i j : Instr} :
    withoutPayload w i = .ok j ↔ nOf w = 0 ∧ i = j := by
  unfold withoutPayload
  split
  next h => exact ⟨fun e => ⟨h, Except.ok.inj e⟩, fun e => congrArg _ e.2⟩
  next h => exact ⟨nofun, fun e => absurd e.1 h⟩

theorem decodeConstruct_eq_ok_iff {w : Word} {p : List Byte} {i : Instr} :
    decodeConstruct w p = .ok i ↔ ∃ q ss, p = q.toList ++ ss.map Setter.code ∧ .construct q ss = i := by
  constructor
  · intro h
    unfold decodeConstruct at h
    split at h
    · split at h
      next ss hss => exact ⟨_, ss, by rw [settersOf_eq_ok hss]; rfl, Except.ok.inj h⟩
      next => cases h
    · cases h
  · rintro ⟨q, ss, rfl, rfl⟩
    simp only [PinBytes.toList, List.cons_append, List.nil_append, decodeConstruct, settersOf_codes]

theorem decodeSetMode_eq_ok_iff {p : List Byte} {i : Instr} :
    decodeSetMode p = .ok i ↔ ∃ ss, p = ss.map Setter.code ∧ .setMode ss = i := by
  constructor
  · intro h
    unfold decodeSetMode at h
    split at h
    next ss hss => exact ⟨ss, settersOf_eq_ok hss, Except.ok.inj h⟩
    next => cases h
  · rintro ⟨ss, rfl, rfl⟩
    simp only [decodeSetMode, settersOf_codes]

theorem decodeLoad_eq_ok_iff {w : Word} {p : List Byte} {i : Instr} :
    decodeLoad w p = .ok i ↔ nOf w = 64 ∧ .loadCustomChars p = i := by
  unfold decodeLoad
  split
  next h => exact ⟨fun e => ⟨h, Except.ok.inj e⟩, fun e => congrArg _ e.2⟩
  next h => exact ⟨nofun, fun e => absurd e.1 h⟩

/-- With a whole payload, the length of the payload is N (R87). -/
theorem nOf_eq_ofNat {w : Word} {p : List Byte} {k : Nat} (hlen : p.length = (nOf w).toNat)
    (hk : p.length = k) : nOf w = BitVec.ofNat 8 k := by
  rw [← hk, hlen, BitVec.ofNat_toNat, BitVec.setWidth_eq]

/-- A word and a payload decode to a command exactly when they are its row, the payload of the length the
word announces. -/
theorem decodeCommand_eq_ok_iff {w : Word} {p : List Byte} {i : Instr} :
    decodeCommand w p = .ok i ↔
      p.length = (nOf w).toNat ∧ CommandRow (aOf w) (bOf w) (opOf w) p i := by
  constructor
  · intro h
    unfold decodeCommand at h
    split at h
    · cases h
    next hlen =>
      have hlen := not_not.mp hlen
      refine ⟨hlen, ?_⟩
      rw [show opOf w = BitVec.ofNat 8 (opOf w).toNat by simp]
      split at h
      case h_21 => cases h
      all_goals rename_i hop; rw [hop]
      case h_1 => obtain ⟨q, ss, rfl, rfl⟩ := decodeConstruct_eq_ok_iff.mp h; exact .construct q ss
      case h_2 => obtain ⟨ss, rfl, rfl⟩ := decodeSetMode_eq_ok_iff.mp h; exact .setMode ss
      case h_3 => cases h; exact .displayString p
      case h_13 =>
        obtain ⟨hn, rfl⟩ := decodeLoad_eq_ok_iff.mp h
        exact .loadCustomChars (hlen.trans (congrArg BitVec.toNat hn))
      all_goals
        obtain ⟨hn, rfl⟩ := withoutPayload_eq_ok_iff.mp h
        obtain rfl := List.eq_nil_of_length_eq_zero (hlen.trans (congrArg BitVec.toNat hn))
        constructor
  · rintro ⟨hlen, h⟩
    unfold decodeCommand
    rw [if_neg (not_not.mpr hlen)]
    generalize hop : opOf w = op at h
    cases h with
    | construct q ss => exact decodeConstruct_eq_ok_iff.mpr ⟨q, ss, rfl, rfl⟩
    | setMode ss => exact decodeSetMode_eq_ok_iff.mpr ⟨ss, rfl, rfl⟩
    | displayString => rfl
    | loadCustomChars hg => exact decodeLoad_eq_ok_iff.mpr ⟨nOf_eq_ofNat hlen hg, rfl⟩
    | _ => exact withoutPayload_eq_ok_iff.mpr ⟨nOf_eq_ofNat hlen rfl, rfl⟩

/-- The encoder writes the row, with 0 in the fields the row ignores (R86). -/
theorem encode_commandRow {a b op : Byte} {p : List Byte} {i : Instr} (h : CommandRow a b op p i) :
    encode i = commandCode op (if op = 0x03 ∨ op = 0x04 ∨ op = 0x05 ∨ op = 0x06 then a else 0)
      (if op = 0x03 then b else 0) p := by
  cases h <;> rfl

/-- The code of a row decodes to its command. -/
theorem decode_commandCode {a b op : Byte} {p : List Byte} {i : Instr} (h : CommandRow a b op p i)
    (hp : p.length ≤ 255) : decode (commandCode op a b p) = .ok i := by
  refine decodeCommand_eq_ok_iff.mpr ⟨?_, by simpa using h⟩
  rw [nOf_commandWord, BitVec.toNat_ofNat, Nat.mod_eq_of_lt (by omega)]

/-- The payload of a CONSTRUCT is nine pin-map bytes and the setters (R89). -/
theorem length_constructPayload (q : PinBytes) (ss : List Setter) :
    (q.toList ++ ss.map Setter.code).length = 9 + ss.length := by
  rw [List.length_append, List.length_map]; rfl

/-- A payload of at least nine bytes begins with a pin map. -/
theorem exists_pinBytes {p : List Byte} (h : 9 ≤ p.length) : ∃ q : PinBytes, q.toList ++ p.drop 9 = p :=
  ⟨⟨p[0], p[1], p[2], p[3], p[4], p[5], p[6], p[7], p[8]⟩, by
    simp only [PinBytes.toList, List.cons_append, List.nil_append, List.getElem_cons_drop, List.drop_zero]⟩

theorem wf_commandRow {a b op : Byte} {p : List Byte} {i : Instr} (h : CommandRow a b op p i)
    (hp : p.length ≤ 255) : i.WF := by
  cases h with
  | construct q ss => exact decide_eq_true (length_constructPayload q ss ▸ hp)
  | setMode ss => exact decide_eq_true (by simpa using hp)
  | displayString => exact decide_eq_true hp
  | loadCustomChars hg => exact decide_eq_true hg
  | _ => rfl

/-! ### The internal operations (R92, R100 to R110) -/

/-! A byte under the mask of its row is the row's fixed bits and the flags, or the address, read from it. -/

theorem lcdHome_flags (b : Byte) : b &&& 0xFE = 0x02 → 0x02 ||| flagAt (b.getLsbD 0) 0 = b := by
  revert b; decide

theorem lcdEntryModeSet_flags (b : Byte) : b &&& 0xFC = 0x04 →
    0x04 ||| flagAt (b.getLsbD 1) 1 ||| flagAt (b.getLsbD 0) 0 = b := by
  revert b; decide

theorem lcdDisplayModeSet_flags (b : Byte) : b &&& 0xF8 = 0x08 →
    0x08 ||| flagAt (b.getLsbD 2) 2 ||| flagAt (b.getLsbD 1) 1 ||| flagAt (b.getLsbD 0) 0 = b := by
  revert b; decide

theorem lcdFunctionModeSet_flags (b : Byte) : b &&& 0xE3 = 0x20 →
    0x20 ||| flagAt (b.getLsbD 4) 4 ||| flagAt (b.getLsbD 3) 3 ||| flagAt (b.getLsbD 2) 2 = b := by
  revert b; decide

theorem lcdSetDdram_address (b : Byte) : b &&& 0x80 = 0x80 →
    0x80 ||| (b.extractLsb' 0 7).setWidth 8 = b := by
  revert b; decide

/-- A controller byte is encoded as it was read. -/
theorem encode_of_decodeController {b : Byte} {i : Instr} (h : decodeController b = .ok i) :
    encode i = controllerCode b := by
  unfold decodeController at h
  repeat' split at h
  all_goals cases h
  all_goals
    rename_i hb
    refine congrArg controllerCode (?_ : _ = b)
  exacts [hb.symm, lcdHome_flags b hb, lcdEntryModeSet_flags b hb, lcdDisplayModeSet_flags b hb, hb.symm,
    hb.symm, lcdFunctionModeSet_flags b hb, hb.symm, lcdSetDdram_address b hb, hb.symm]

theorem encode_of_decodeNibble {n : Nibble} {i : Instr} (h : decodeNibble n = .ok i) :
    encode i = .internal (.nibble n) := by
  unfold decodeNibble at h
  repeat' split at h
  all_goals cases h
  all_goals
    rename_i hn
    rw [hn]
    rfl

theorem encode_setter (x : Setter) : encode x.instr = setterCode x := by
  cases x <;> rfl

/-- An internal operation is encoded as it was read. -/
theorem encode_of_decodeInternal {x : Internal} {i : Instr} (h : decodeInternal x = .ok i) :
    encode i = .internal x := by
  cases x with
  | setter b =>
    simp only [decodeInternal] at h
    split at h
    next y hy =>
      obtain rfl := code_of_ofCode b y hy
      exact Except.ok.inj h ▸ encode_setter y
    next => cases h
  | controller b => exact encode_of_decodeController h
  | nibble n => exact encode_of_decodeNibble h

/-- Only the commands with a payload have ill-formed operands. -/
theorem wf_of_encode_internal {x : Internal} {i : Instr} (h : encode i = .internal x) : i.WF := by
  cases i
  case construct | setMode | displayString | loadCustomChars => cases h
  all_goals rfl

/-- The address of a set-address byte is read back. -/
theorem decodeController_setDdram (addr : BitVec 7) :
    decodeController (0x80 ||| addr.setWidth 8) = .ok (.lcdSetDdram addr) := by
  revert addr; decide

/-! ### The claims -/

/-- Settles O1: the code of a command with operands is its row, the flags of the emitted instructions have few
values, and the codes of the instructions without operands are closed. -/
theorem decodeOfEncodeIsTheInstruction : Obligations.DecodeOfEncodeIsTheInstruction := by
  intro i hwf
  cases i
  case construct q ss =>
    have hlen : 9 + ss.length ≤ 255 := of_decide_eq_true hwf
    exact decode_commandCode (.construct q ss) ((length_constructPayload q ss).trans_le hlen)
  case setMode ss =>
    have hlen : ss.length ≤ 255 := of_decide_eq_true hwf
    exact decode_commandCode (.setMode ss) ((List.length_map _).trans_le hlen)
  case displayString line column text =>
    exact decode_commandCode (.displayString text) (of_decide_eq_true hwf)
  case loadCustomChars g =>
    have hlen : g.length = 64 := of_decide_eq_true hwf
    exact decode_commandCode (.loadCustomChars hlen) (hlen.trans_le (by omega))
  case writeChar => exact decode_commandCode .writeChar (Nat.zero_le _)
  case writeInstruction => exact decode_commandCode .writeInstruction (Nat.zero_le _)
  case setCursorAddress => exact decode_commandCode .setCursorAddress (Nat.zero_le _)
  case lcdHome x => revert x; decide
  case lcdEntryModeSet inc shift => revert inc shift; decide
  case lcdDisplayModeSet disp cursor blink => revert disp cursor blink; decide
  case lcdFunctionModeSet dl n f => revert dl n f; decide
  case lcdSetDdram addr => exact decodeController_setDdram addr
  all_goals rfl

/-- Settles O2: a command is a row of the table with a payload of at most 255 bytes. -/
theorem decodedInstructionsAreWellFormed : Obligations.DecodedInstructionsAreWellFormed := by
  intro c i h
  cases c with
  | internal x => exact wf_of_encode_internal (encode_of_decodeInternal h)
  | command w p =>
    obtain ⟨hlen, hrow⟩ := decodeCommand_eq_ok_iff.mp h
    exact wf_commandRow hrow (by have := (nOf w).isLt; omega)

/-- Settles O3: an accepted command is a row of the table, which the encoder writes again. -/
theorem encodeOfDecodedIsTheCode : Obligations.EncodeOfDecodedIsTheCode := by
  refine ⟨fun x i h => encode_of_decodeInternal h, fun w p i h => ?_⟩
  obtain ⟨hlen, hrow⟩ := decodeCommand_eq_ok_iff.mp h
  refine ⟨_, _, ?_, rfl, rfl⟩
  rw [encode_commandRow hrow, commandCode, hlen, BitVec.ofNat_toNat, BitVec.setWidth_eq]

/-- The opcodes of the rows without a payload. -/
theorem exists_bareRow (a b : Byte) {op : Byte}
    (h : (0x04 ≤ op.toNat ∧ op.toNat ≤ 0x0C) ∨ (0x10 ≤ op.toNat ∧ op.toNat ≤ 0x16)) :
    ∃ i, CommandRow a b op [] i := by
  rw [show op = BitVec.ofNat 8 op.toNat by simp]
  generalize op.toNat = k at h
  rcases h with ⟨hl, hu⟩ | ⟨hl, hu⟩ <;> interval_cases k <;> exact ⟨_, by constructor⟩

/-- Settles O4: a row of the table is one of the cases, and each case has its row. -/
theorem rejectedCommandsAreTheIllegalOnes : Obligations.RejectedCommandsAreTheIllegalOnes := by
  intro w p hlen
  have hrow : (∃ i, decode (.command w p) = .ok i) ↔ ∃ i, CommandRow (aOf w) (bOf w) (opOf w) p i :=
    exists_congr fun i => decodeCommand_eq_ok_iff.trans (and_iff_right hlen)
  rw [hrow]
  constructor
  · rintro ⟨i, h⟩
    generalize opOf w = op at h
    cases h with
    | construct q ss =>
      have hn : 9 ≤ (nOf w).toNat := by rw [← hlen, length_constructPayload]; omega
      exact .inl ⟨rfl, hn, (exists_codes_iff _).mp ⟨ss, rfl⟩⟩
    | setMode ss => exact .inr (.inl ⟨rfl, (exists_codes_iff _).mp ⟨ss, rfl⟩⟩)
    | displayString => exact .inr (.inr (.inl rfl))
    | loadCustomChars hg => exact .inr (.inr (.inr (.inr (.inl ⟨rfl, nOf_eq_ofNat hlen hg⟩))))
    | qEntryIncrement | qShiftOn | qDisplayOn | qCursorOn | qBlinkOn | qBusWidth | qLineCount =>
      exact .inr (.inr (.inr (.inr (.inr ⟨by decide, by decide, nOf_eq_ofNat hlen rfl⟩))))
    | _ => exact .inr (.inr (.inr (.inl ⟨by decide, by decide, nOf_eq_ofNat hlen rfl⟩)))
  · rintro (⟨hop, hn, hp⟩ | ⟨hop, hp⟩ | hop | ⟨hl, hu, hn⟩ | ⟨hop, hn⟩ | ⟨hl, hu, hn⟩)
    · obtain ⟨q, hq⟩ := exists_pinBytes (hn.trans_eq hlen.symm)
      obtain ⟨ss, hss⟩ := (exists_codes_iff _).mpr hp
      rw [hop, ← hq, ← hss]
      exact ⟨_, .construct q ss⟩
    · obtain ⟨ss, rfl⟩ := (exists_codes_iff p).mpr hp
      exact hop ▸ ⟨_, .setMode ss⟩
    · exact hop ▸ ⟨_, .displayString p⟩
    · obtain rfl := List.eq_nil_of_length_eq_zero (hlen.trans (congrArg BitVec.toNat hn))
      exact exists_bareRow _ _ (.inl ⟨hl, hu⟩)
    · exact hop ▸ ⟨_, .loadCustomChars (hlen.trans (congrArg BitVec.toNat hn))⟩
    · obtain rfl := List.eq_nil_of_length_eq_zero (hlen.trans (congrArg BitVec.toNat hn))
      exact exists_bareRow _ _ (.inr ⟨hl, hu⟩)

/-- Settles O5: the codes are closed, and decoding them is computing. -/
theorem sampleEncodingsDecode : Obligations.SampleEncodingsDecode :=
  ⟨rfl, rfl, rfl, rfl, rfl, rfl, rfl, rfl⟩

end Sys2Proof
end

section
/-!
PROOFS. Frames and micro-op lists (40_frame_encoder.md R132, R133; 41_nibble_write.md R150 to R153;
42_mode_state.md R188; 43_init_sequencer.md R222), and the levels of every byte that is sent (30_encoding.md
R82; 40_frame_encoder.md R135).
-/

namespace Sys2Proof.Machine

open Sys2Proof

/-! ### The bits of a frame -/

/-- Settles O8: a frame is the union of its placed signals, and under a valid map no two share a position. -/
theorem everyFrameBitIsItsSignal : Obligations.EveryFrameBitIsItsSignal := by
  intro pm bl rs n q h
  simp only [PinMap.Valid, PinMap.positions, List.nodup_cons, List.mem_cons, not_or] at h
  obtain ⟨⟨-, -, hrs4, hrs5, hrs6, hrs7, hrsb, -⟩, -, -, ⟨h45, h46, h47, h4b, -⟩, ⟨h56, h57, h5b, -⟩,
    ⟨h67, h6b, -⟩, ⟨h7b, -⟩, -⟩ := h
  simp only [encodeFrame, BitVec.getLsbD_or, getLsbD_place, Bool.false_and, Bool.or_false]
  split_ifs with h4 h5 h6 h7 hr hb
  all_goals simp [*, Ne.symm]

/-- Under a valid pin map a byte the engine sends is a write, with the backlight level on its position. -/
theorem busByte_levels {pm : PinMap} (h : pm.Valid) {bl : Bool} {b : Byte} (hb : BusByte pm bl b) :
    b.getLsbD pm.rw.val = false ∧ b.getLsbD pm.bl.val = (bl ^^ pm.pol) := by
  obtain ⟨rs, n, hb⟩ := hb
  have hd := h
  simp only [PinMap.Valid, PinMap.positions, List.nodup_cons, List.mem_cons, not_or] at hd
  obtain ⟨⟨hrsrw, -, -, -, -, -, hrsb, -⟩, ⟨hrwen, hrw4, hrw5, hrw6, hrw7, hrwb, -⟩, ⟨-, -, -, -, henb, -⟩,
    ⟨-, -, -, h4b, -⟩, ⟨-, -, h5b, -⟩, ⟨-, h6b, -⟩, ⟨h7b, -⟩, -⟩ := hd
  have hframe : (encodeFrame pm bl rs n).getLsbD pm.rw.val = false ∧
      (encodeFrame pm bl rs n).getLsbD pm.bl.val = (bl ^^ pm.pol) := by
    rw [everyFrameBitIsItsSignal pm bl rs n _ h, everyFrameBitIsItsSignal pm bl rs n _ h]
    simp [*, Ne.symm]
  rcases hb with rfl | rfl
  · exact hframe
  · simp only [BitVec.getLsbD_or, getLsbD_bit, hrwen, Ne.symm henb, decide_false, Bool.or_false]
    exact hframe

/-- Settles O50: a step that sends a byte performs, or fails to perform, the TX at SEQ, and the invariant says
what the bytes of PROG are. -/
theorem sentBytesAreWriteFrames : Obligations.SentBytesAreWriteFrames := by
  intro s t b hi ht hsent
  rcases traceGrowsByTheCurrentMicroOp s t hi ht with ⟨htr, -⟩ | ⟨hb, -, -, m, hm, htr⟩
  · simp [htr] at hsent
  · have hmb : m = .tx b := by
      rcases htr with ⟨htr, -⟩ | ⟨c, rfl, htr, -⟩
      · cases m <;> simp_all [MicroOp.event]
      · simpa [htr] using hsent
    have hmem : .tx b ∈ s.prog := List.mem_of_getElem? (hmb ▸ hm)
    exact busByte_levels (hi.pinMap (hi.busyLife hb)) (hi.frames hb b hmem)

/-! ### The settle delay (R112, R153) -/

theorem settleOf_spec (rs : Bool) (v : Byte) : settleOf Config.spec rs v =
    if rs = false ∧ (v = 0x01 ∨ v = 0x02 ∨ v = 0x03) then 1600 else 40 := by
  simp [settleOf, Config.spec]

/-- A byte of at least 4 is followed by the ordinary settle delay. -/
theorem settleOf_spec_of_four_le (rs : Bool) {v : Byte} (h : 4 ≤ v.toNat) :
    settleOf Config.spec rs v = 40 := by
  rw [settleOf_spec, if_neg]
  rintro ⟨-, rfl | rfl | rfl⟩ <;> exact absurd h (by decide)

theorem waitSum_nibbleOps_spec (pm : PinMap) (bl rs : Bool) (n : Nibble) :
    waitSum (nibbleOps Config.spec pm bl rs n) = 233 := rfl

theorem waitSum_byteOps_spec (pm : PinMap) (bl rs : Bool) (v : Byte) :
    waitSum (byteOps Config.spec pm bl rs v) = 466 + settleOf Config.spec rs v := by
  simp only [byteOps, waitSum_append, waitSum_nibbleOps_spec, waitSum, Nat.add_zero]

/-- Settles O10: the two nibble frames have 233 microseconds each. -/
theorem byteIsTwoFramesAndASettleDelay : Obligations.ByteIsTwoFramesAndASettleDelay := by
  intro pm bl rs v F settle
  have hs : settleOf Config.spec rs v = settle := settleOf_spec rs v
  refine ⟨?_, rfl, rfl, by rw [waitSum_byteOps_spec, hs]⟩
  rw [byteOps, hs]
  rfl

/-- Setting more bits does not make a byte smaller. -/
theorem le_toNat_or (x y : Byte) : x.toNat ≤ (x ||| y).toNat := by
  rw [BitVec.toNat_or]; exact Nat.left_le_or

theorem waitSum_commitOps_spec (pm : PinMap) (bl : Bool) (m : Mode) :
    waitSum (commitOps Config.spec pm bl m) = 1518 := by
  have he : 4 ≤ (entryByte Config.spec m.entry).toNat := le_toNat_or 0x04 _
  have hd : 4 ≤ (displayByte Config.spec m.display).toNat := le_trans (by decide) (le_toNat_or 0x08 m.display)
  have hf : 4 ≤ (functionByte Config.spec m.function).toNat :=
    le_trans (by decide) (le_toNat_or 0x20 m.function)
  simp only [commitOps, instrOps, waitSum_append, waitSum_byteOps_spec, settleOf_spec_of_four_le, he, hd, hf]

/-- Settles O11: no mode byte is as small as the bytes of the long settle class. -/
theorem commitSendsEntryDisplayFunction : Obligations.CommitSendsEntryDisplayFunction :=
  ⟨fun pm bl m => ⟨rfl, rfl, rfl, waitSum_commitOps_spec pm bl m⟩, by decide⟩

/-- Settles O12: the list stands there step by step; of its waits only those of the bytes need their settle
delays. -/
theorem initializationListIsTheSevenSteps : Obligations.InitializationListIsTheSevenSteps := by
  intro pm bl m L
  refine ⟨rfl, rfl, ?_, rfl, rfl, rfl, rfl, rfl, rfl, rfl⟩
  simp only [L, initOps, instrOps, waitSum_append, waitSum_commitOps_spec, waitSum_byteOps_spec, settleOf_spec,
    waitSum_nibbleOps_spec]
  simp [waitSum, Config.spec]

end Sys2Proof.Machine
end

section
/-!
PROOFS. What the commands and the emitted instructions of an engine with the spec's configuration do
(30_encoding.md R94, R100 to R111; 41_nibble_write.md R157 to R159; 42_mode_state.md R188 to R199;
44_display_api.md R240 to R249).
-/

namespace Sys2Proof.Machine

open Sys2Proof

/-! ### Commands of a ready engine -/

section
variable {s u : State} {i : Instr} {k : State → Host.Outcome State Fault Refusal} {p : List MicroOp}

/-- On a ready engine a checked command that launches a program beginning with the settle delay leaves it
loaded, with that delay begun. -/
theorem ready_launches (hc : ∀ s, exec i s = s.whenReady k) (hl : s.life = .ready)
    (hk : k s = .next (u.launch p)) (hu : u.cfg = Config.spec) (hp : Program u.pm u.bl u.cfg.tSettle p) :
    exec i s = .next
      { u with busy := true, prog := p, seq := 0, timer := ticksOf u.tickNs 1 } := by
  rw [hc, whenReady_ready hl, hk, launch_program hp, show u.cfg.tSettle = 1 by rw [hu]; rfl]
  rfl

/-- The program a checked command of a ready engine launches is its PROG. -/
theorem prog_of_launches {t : State} (hc : ∀ s, exec i s = s.whenReady k) (hl : s.life = .ready)
    (hk : k s = .next (u.launch p)) (h : exec i s = .next t) : t.prog = p := by
  rw [hc, whenReady_ready hl, hk] at h
  cases h
  exact launch_prog u p

/-- On a ready engine a checked command that sends one byte. -/
theorem ready_sends {rs : Bool} {v c : Byte} (hc : ∀ s, exec i s = s.whenReady k) (hl : s.life = .ready)
    (hk : k s = .next (u.launch (byteOps u.cfg u.pm u.bl rs v))) (hu : u.cfg = Config.spec) (hv : v = c) :
    exec i s = .next
      { u with busy := true, prog := byteOps Config.spec u.pm u.bl rs c, seq := 0,
               timer := ticksOf u.tickNs 1 } := by
  rw [ready_launches hc hl hk hu (program_byteOps ..), hu, hv]

/-- A ready engine stays ready when it answers at once. -/
theorem answer_ready (hl : s.life = .ready) (v : Byte) : s.answer v =
    { s with busy := false, prog := [], seq := 0, rspValid := true, rspStatus := 0x00, rspValue := v } := by
  simp only [State.answer, State.load, State.complete, hl, ite_self]
  rw [← hl]
  rfl

/-- On a ready engine a query answers at once. -/
theorem ready_answers {v : Byte} (hc : ∀ s, exec i s = s.whenReady k) (hl : s.life = .ready)
    (hk : k s = .next (s.answer v)) :
    exec i s = .next
      { s with busy := false, prog := [], seq := 0, rspValid := true, rspStatus := 0x00, rspValue := v } := by
  rw [hc, whenReady_ready hl, hk, answer_ready hl]

end

/-- Settles O19: the program of CLEAR is the clear instruction and the commit. -/
theorem clearSendsClearThenCommit : Obligations.ClearSendsClearThenCommit := by
  intro s hc hl
  rw [ready_launches (fun _ => rfl) hl rfl hc (program_clear s.cfg s.pm s.bl s.cfg.lcdClear s.mode), hc]
  rfl

/-- Settles O20: the operand is the byte that is sent. -/
theorem rawWritesSendTheirOperand : Obligations.RawWritesSendTheirOperand :=
  fun _ _ hc hl => ⟨ready_sends (fun _ => rfl) hl rfl hc rfl, ready_sends (fun _ => rfl) hl rfl hc rfl⟩

/-- Settles O21: each command sends one byte of the configuration. -/
theorem singleInstructionCommandsSendTheirByte : Obligations.SingleInstructionCommandsSendTheirByte := by
  intro s a hc hl
  refine ⟨ready_sends (fun _ => rfl) hl rfl hc ?_, ready_sends (fun _ => rfl) hl rfl hc ?_,
    ready_sends (fun _ => rfl) hl rfl hc ?_, ready_sends (fun _ => rfl) hl rfl hc ?_⟩ <;>
    rw [hc] <;> rfl

/-- Settles O22: the byte is sent from the state with the new backlight. -/
theorem backlightCommandsWriteThenSend : Obligations.BacklightCommandsWriteThenSend := by
  intro s hc hl
  exact ⟨ready_sends (u := s.withBacklight true) (fun _ => rfl) hl rfl hc (by rw [hc]; rfl),
    ready_sends (u := s.withBacklight false) (fun _ => rfl) hl rfl hc (by rw [hc]; rfl)⟩

/-- Settles O25: each query answers its bit of MODE. -/
theorem queriesAnswerTheirModeBit : Obligations.QueriesAnswerTheirModeBit :=
  fun _ hl => ⟨ready_answers (fun _ => rfl) hl rfl, ready_answers (fun _ => rfl) hl rfl,
    ready_answers (fun _ => rfl) hl rfl, ready_answers (fun _ => rfl) hl rfl,
    ready_answers (fun _ => rfl) hl rfl, ready_answers (fun _ => rfl) hl rfl,
    ready_answers (fun _ => rfl) hl rfl⟩

/-! ### Emitted instructions -/

section
variable {s : State} (hc : s.cfg = Config.spec) {i : Instr}
include hc

theorem emits_byte {v c : Byte} (hi : exec i s = .next (s.emitInstr v)) (hv : v = c) :
    exec i s = .next { s with prog := s.prog ++ byteOps Config.spec s.pm s.bl false c } := by
  rw [hi, State.emitInstr, instrOps, hc, hv]

theorem emits_nibble {n m : Nibble} (hi : exec i s = .next (s.emitNibble n)) (hn : n = m) :
    exec i s = .next { s with prog := s.prog ++ nibbleOps Config.spec s.pm s.bl false m } := by
  rw [hi, State.emitNibble, hc, hn]

end

/-- Settles O26: each row of the table emits its byte, the fixed bits and the flags, or its nibble. -/
theorem emittedInstructionsExtendTheProgram : Obligations.EmittedInstructionsExtendTheProgram := by
  intro s hc adds
  refine ⟨emits_byte hc rfl ?_, emits_byte hc rfl ?_, emits_byte hc rfl ?_,
    fun inc shift => emits_byte hc rfl ?entry, fun d c b => emits_byte hc rfl ?display,
    emits_byte hc rfl ?_, emits_byte hc rfl ?_, fun dl n f => emits_byte hc rfl ?function,
    emits_byte hc rfl ?_, fun a => emits_byte hc rfl ?_, emits_byte hc rfl ?_,
    emits_nibble hc rfl ?_, emits_nibble hc rfl ?_⟩
  case entry => rw [hc, entryByte, ← BitVec.or_assoc]; rfl
  case display => rw [hc, displayByte, ← BitVec.or_assoc, ← BitVec.or_assoc]; rfl
  case function => rw [hc, functionByte, ← BitVec.or_assoc, ← BitVec.or_assoc]; rfl
  all_goals rw [hc]; rfl

/-! ### Commands as sequences of emitted instructions -/

/-- Under its mask a mode field is the union of its bits (R28 to R31). -/
theorem entry_modeBits (e : Byte) : e &&& 0xFC = 0 →
    modeBit (e.getLsbD 1) 1 ||| modeBit (e.getLsbD 0) 0 = e := by
  revert e; decide

theorem display_modeBits (d : Byte) : d &&& 0xF8 = 0 →
    modeBit (d.getLsbD 2) 2 ||| modeBit (d.getLsbD 1) 1 ||| modeBit (d.getLsbD 0) 0 = d := by
  revert d; decide

theorem function_modeBits (f : Byte) : f &&& 0xE3 = 0 →
    modeBit (f.getLsbD 4) 4 ||| modeBit (f.getLsbD 3) 3 ||| modeBit (f.getLsbD 2) 2 = f := by
  revert f; decide

/-- The emitted instructions of a commit build the commit. -/
theorem execAll_commitInstrs {m : Mode} (h : m.Masked) (s : State) :
    execAll (commitInstrs m) s = .next { s with prog := s.prog ++ commitOps s.cfg s.pm s.bl m } := by
  obtain ⟨he, hd, hf⟩ := h
  simp only [execAll, commitInstrs, exec, execLcdEntryModeSet, execLcdDisplayModeSet, execLcdFunctionModeSet,
    entry_modeBits _ he, display_modeBits _ hd, function_modeBits _ hf, State.emitInstr, commitOps,
    List.append_assoc]

/-- Settles O27: what the emitted instructions build is the program the command launches. -/
theorem commandsAreBuiltFromEmittedInstructions : Obligations.CommandsAreBuiltFromEmittedInstructions := by
  intro s t hc hl hm
  have commit (u : State) := execAll_commitInstrs hm u
  refine ⟨fun h => ⟨_, commit _, prog_of_launches (fun _ => rfl) hl rfl h⟩,
    fun h => ⟨_, commit _, prog_of_launches (fun _ => rfl) hl rfl h⟩, fun h => ⟨_, rfl, ?_⟩⟩
  rw [prog_of_launches (fun _ => rfl) hl rfl h, hc]
  rfl

end Sys2Proof.Machine
end

section
/-!
PROOFS. What a step takes from the host port and what it leaves there, the response port, and the lane of the
internal operations (30_encoding.md R84; 60_exceptions.md R290, R291).
-/

namespace Sys2Proof.Machine

open Sys2Proof

/-! ### What stays on the port -/

@[simp] theorem offer_words (s : State) : s.offer.words = s.words := by
  unfold State.offer; split <;> rfl
@[simp] theorem offer_payload (s : State) : s.offer.payload = s.payload := by
  unfold State.offer; split <;> rfl
@[simp] theorem offer_issue (s : State) : s.offer.issue = s.issue := by
  unfold State.offer; split <;> rfl
@[simp] theorem offer_taking (s : State) : s.offer.taking = s.taking := by
  unfold State.offer; split <;> rfl

/-- What a transfer does not take stays on the port, and on the lane of the internal operations. -/
theorem gather_port (s : State) (w : Word) (p : List Byte) :
    ∃ t, (s.gather w p).outcome = .next t ∧ t.words = s.words ∧ t.payload = s.payload ∧
      t.issue = s.issue := by
  rcases gather_cases s w p with ⟨_, h⟩ | ⟨i, _, _, h⟩ | ⟨_, _, _, h⟩ <;> rw [h]
  · exact ⟨_, rfl, rfl, rfl, rfl⟩
  · obtain ⟨t, ht, hs⟩ := exec_sameOutside i (s.accept w p)
    exact ⟨t, ht, hs.words, hs.payload, hs.issue⟩
  · exact ⟨_, rfl, rfl, rfl, rfl⟩

/-- A busy engine, and one with a response on the port, takes nothing. -/
theorem step_blocked {s : State} (hr : s.resetAsserted = false) (h : s.busy = true ∨ s.rspValid = true) :
    ∃ t, step s = .next t ∧ t.words = s.words ∧ t.payload = s.payload ∧ t.issue = s.issue ∧
      t.taking = s.taking := by
  rcases step_cases s with ⟨hr', _⟩ | ⟨_, _, ht⟩ | ⟨_, _, _, ht⟩ | ⟨_, hb, hv, _⟩
  · simp [hr] at hr'
  · exact ⟨_, ht, by simp⟩
  · exact ⟨_, ht, by simp⟩
  · simp [hb, hv] at h

/-- Without a presented payload byte an engine that is taking a command stays as it is. -/
theorem step_noByte {s : State} {k : Taking} (hs : s.Idle) (hk : s.taking = some k) (hp : s.payload = []) :
    step s = .next s.popReset := by
  rw [step_eq_outcome, turn_idle hs.noReset hs.notBusy hs.noResponse, takeNext_noByte (s := s.popReset) hk hp]
  rfl

/-- Without a presented word an idle engine stays as it is. -/
theorem step_noWord {s : State} (hs : s.Idle) (hk : s.taking = none) (hi : s.issue = none)
    (hw : s.words = []) : step s = .next s.popReset := by
  rw [step_eq_outcome, turn_idle hs.noReset hs.notBusy hs.noResponse,
    takeNext_noWord (s := s.popReset) hk hi hw]
  rfl

/-- An engine that is taking a command takes a payload byte if one is presented, and nothing else. -/
theorem step_taking {s : State} {k : Taking} (hs : s.Idle) (hk : s.taking = some k) :
    ∃ t, step s = .next t ∧ t.words = s.words ∧ t.payload = s.payload.tail ∧ t.issue = s.issue := by
  cases hp : s.payload with
  | nil => exact ⟨_, step_noByte hs hk hp, rfl, hp, rfl⟩
  | cons b bs =>
    rw [step_byte hs.noReset hs.notBusy hs.noResponse hk hp]
    exact gather_port ..

/-- An idle engine that is taking nothing takes a word if one is presented, and nothing else. -/
theorem step_notTaking {s : State} (hs : s.Idle) (hk : s.taking = none) (hi : s.issue = none) :
    ∃ t, step s = .next t ∧ t.words = s.words.tail ∧ t.payload = s.payload := by
  cases hw : s.words with
  | nil => exact ⟨_, step_noWord hs hk hi hw, hw, rfl⟩
  | cons w ws =>
    rw [step_word hs.noReset hs.notBusy hs.noResponse hk hi hw]
    obtain ⟨t, ht, hwords, hpayload, -⟩ := gather_port (s.popReset.withPort ws s.payload) w []
    exact ⟨t, ht, hwords, hpayload⟩

/-- Settles O33: the port is empty, or the engine is blocked, or it is taking a command. -/
theorem nothingIsTakenBeforeItsTime : Obligations.NothingIsTakenBeforeItsTime := by
  intro s hr
  refine ⟨fun hb hv hk hi hw => step_noWord ⟨hr, hb, hv⟩ hk hi hw,
    fun k hb hv hk hp => step_noByte ⟨hr, hb, hv⟩ hk hp, fun k hk => ?_, step_blocked hr⟩
  by_cases h : s.busy = true ∨ s.rspValid = true
  · obtain ⟨t, ht, hwords, -, hissue, -⟩ := step_blocked hr h
    exact ⟨t, ht, hwords, hissue⟩
  · simp only [not_or, Bool.not_eq_true] at h
    obtain ⟨t, ht, hwords, -, hissue⟩ := step_taking ⟨hr, h.1, h.2⟩ hk
    exact ⟨t, ht, hwords, hissue⟩

/-! ### The handshakes -/

theorem idle_iff (s : State) :
    s.Idle ↔ s.resetAsserted = false ∧ s.busy = false ∧ s.rspValid = false :=
  ⟨fun h => ⟨h.noReset, h.notBusy, h.noResponse⟩, fun ⟨hr, hb, hv⟩ => ⟨hr, hb, hv⟩⟩

theorem cmdReady_iff (s : State) : s.cmdReady = true ↔ s.Idle ∧ s.taking = none := by
  simp [idle_iff, State.cmdReady, and_assoc]

theorem plReady_iff (s : State) : s.plReady = true ↔ s.Idle ∧ s.taking ≠ none := by
  simp [idle_iff, State.plReady, and_assoc, Option.isSome_iff_ne_none]

/-- A step of an engine that is not idle leaves the host port as it is. -/
theorem step_notIdle {s : State} (h : ¬ s.Idle) :
    ∃ t, step s = .next t ∧ t.words = s.words ∧ t.payload = s.payload := by
  cases hr : s.resetAsserted with
  | true => exact ⟨_, step_reset hr, rfl, rfl⟩
  | false =>
    have hblocked : s.busy = true ∨ s.rspValid = true := by
      by_contra hn
      simp only [not_or, Bool.not_eq_true] at hn
      exact h ⟨hr, hn.1, hn.2⟩
    obtain ⟨t, ht, hwords, hpayload, -⟩ := step_blocked hr hblocked
    exact ⟨t, ht, hwords, hpayload⟩

/-- Settles O59: the two outputs are high on an idle engine only, one while a command is being taken and the
other while none is. -/
theorem handshakesDecideWhatIsTaken : Obligations.HandshakesDecideWhatIsTaken := by
  intro s hi
  refine ⟨fun hc => ?_, fun hp => ?_, ?_⟩
  · obtain ⟨hs, hk⟩ := (cmdReady_iff s).mp hc
    exact ⟨hs.notBusy, by simp [State.plReady, hk]⟩
  · obtain ⟨hs, hk⟩ := (plReady_iff s).mp hp
    exact ⟨hs.notBusy, hk⟩
  · by_cases hs : s.Idle
    · cases hk : s.taking with
      | none => simpa [cmdReady_iff, plReady_iff, hs, hk] using step_notTaking hs hk hi
      | some k =>
        obtain ⟨t, ht, hwords, hpayload, -⟩ := step_taking hs hk
        exact ⟨t, ht, by simp [cmdReady_iff, hk, hwords], by simp [plReady_iff, hs, hk, hpayload]⟩
    · simpa [cmdReady_iff, plReady_iff, hs] using step_notIdle hs

/-- Settles O60: the transfers up to the last one, and the acceptance with it. -/
theorem commandIsTakenTransferByTransfer : Obligations.CommandIsTakenTransferByTransfer := by
  intro s w ws p rest hr hb hv hk hi hw hp hlen
  refine ⟨fun j hj => runSteps_takes hr hb hv hk hi hw hp hlen hj, fun i hd => ?_⟩
  rw [runSteps_accepts hr hb hv hk hi hw hp hlen hd, State.accept, ← hk]
  rfl

/-! ### The response port -/

theorem offer_taken {s : State} (h : s.hostReady = true) :
    s.offer = { s with rspReady := s.rspReady.tail, rspValid := false,
                       responses := s.responses ++ [⟨s.rspStatus, s.rspValue⟩] } :=
  if_pos h

theorem offer_held {s : State} (h : s.hostReady = false) :
    s.offer = { s with rspReady := s.rspReady.tail } :=
  if_neg (Bool.not_eq_true _ ▸ h)

/-- Settles O34: the step offers the response. -/
theorem responseIsHeldUntilTaken : Obligations.ResponseIsHeldUntilTaken := by
  intro s hr hb hv
  rw [step_offer hr hb hv]
  exact ⟨fun h => congrArg _ (offer_taken (s := s.popReset) h),
    fun h => congrArg _ (offer_held (s := s.popReset) h)⟩

/-! ### The lane of the internal operations -/

/-- The step that takes an internal operation issued by itself (log 10). -/
theorem step_issue {s : State} {x : Internal} {i : Instr} (hs : s.Idle) (hk : s.taking = none)
    (hx : s.issue = some x) (hi : decodeInternal x = .ok i) :
    step s = startIssued (exec i s.popReset.beginIssue) := by
  rw [step_eq_outcome, turn_idle hs.noReset hs.notBusy hs.noResponse]
  simp only [State.takeNext, State.popReset_taking, State.popReset_issue, hk, hx, State.takeIssue, hi]
  rfl

/-- Settles O31: what the operation put into PROG is begun, or the command ended. -/
theorem stepExecutesAnIssuedOperation : Obligations.StepExecutesAnIssuedOperation := by
  intro s t x i hr hb hv hk hx hi ht
  have hexec : exec i s.popReset.beginIssue = .next t := ht
  rw [step_issue ⟨hr, hb, hv⟩ hk hx hi, hexec, startIssued]
  rcases enter_cases t with ⟨hm, h⟩ | ⟨d, hm, h⟩ | ⟨b, hm, h⟩ <;> rw [h, hm] <;> rfl

end Sys2Proof.Machine
end

section
/-!
PROOFS. Pin-map validation and the value law of the frame encoder (40_frame_encoder.md R130, R131, R136;
43_init_sequencer.md R221).
-/

namespace Sys2Proof.Machine

open Sys2Proof

/-! ### The nine bytes of a pin map (R130) -/

theorem positionOf_eq_some_iff {b : Byte} {q : Pos} : positionOf b = some q ↔ b.toNat = q.val := by
  unfold positionOf
  split
  · simp [Fin.ext_iff]
  · exact iff_of_false nofun (fun h => by omega)

theorem polarityOf_eq_some_iff {b : Byte} {x : Bool} :
    polarityOf b = some x ↔ b = if x then 1 else 0 := by
  unfold polarityOf
  split_ifs with h0 h1
  all_goals cases x <;> simp_all

/-- The bytes are in range exactly when they are the fields of a map. -/
theorem pinMapOf_eq_some_iff {p : PinBytes} {pm : PinMap} : pinMapOf p = some pm ↔
    p.rs.toNat = pm.rs.val ∧ p.rw.toNat = pm.rw.val ∧ p.en.toNat = pm.en.val ∧
    p.d4.toNat = pm.d4.val ∧ p.d5.toNat = pm.d5.val ∧ p.d6.toNat = pm.d6.val ∧
    p.d7.toNat = pm.d7.val ∧ p.bl.toNat = pm.bl.val ∧ p.pol = if pm.pol then 1 else 0 := by
  simp only [← positionOf_eq_some_iff, ← polarityOf_eq_some_iff]
  constructor
  · intro h
    simp only [pinMapOf, Option.bind_eq_bind, Option.bind_eq_some_iff, Option.pure_def,
      Option.some.injEq] at h
    obtain ⟨_, hrs, _, hrw, _, hen, _, h4, _, h5, _, h6, _, h7, _, hbl, _, hpol, rfl⟩ := h
    exact ⟨hrs, hrw, hen, h4, h5, h6, h7, hbl, hpol⟩
  · rintro ⟨hrs, hrw, hen, h4, h5, h6, h7, hbl, hpol⟩
    simp [pinMapOf, *]

theorem validatePinMap_eq_some_iff {p : PinBytes} {pm : PinMap} :
    validatePinMap p = some pm ↔ pinMapOf p = some pm ∧ pm.Valid := by
  cases hm : pinMapOf p with
  | none => simp [validatePinMap, hm]
  | some pm' =>
    simp only [validatePinMap, hm, Option.ite_none_right_eq_some, Option.some.injEq]
    exact ⟨fun ⟨hv, he⟩ => ⟨he, he ▸ hv⟩, fun ⟨he, hv⟩ => ⟨he ▸ hv, he⟩⟩

/-- Lists of bytes and of positions with the same numbers repeat a value together. -/
theorem nodup_bytes_iff {bs : List Byte} {qs : List Pos} (h : bs.map BitVec.toNat = qs.map Fin.val) :
    bs.Nodup ↔ qs.Nodup := by
  have hinj : Function.Injective (BitVec.toNat (w := 8)) := fun _ _ => BitVec.eq_of_toNat_eq
  rw [← List.nodup_map_iff hinj, h, List.nodup_map_iff Fin.val_injective]

/-- Settles O6: validation reads nine bytes in range, whose distinctness is that of the positions; the other
answer is CONSTRUCT's refusal. -/
theorem pinMapValidationAcceptsExactlyPermutations :
    Obligations.PinMapValidationAcceptsExactlyPermutations := by
  refine fun p => ⟨fun pm => ?_, fun h ss s => construct_invalid h ss s⟩
  have hnodup (h : pinMapOf p = some pm) :
      [p.rs, p.rw, p.en, p.d4, p.d5, p.d6, p.d7, p.bl].Nodup ↔ pm.Valid := by
    obtain ⟨hrs, hrw, hen, h4, h5, h6, h7, hbl, -⟩ := pinMapOf_eq_some_iff.mp h
    exact nodup_bytes_iff (by simp [PinMap.positions, *])
  rw [validatePinMap_eq_some_iff, ← and_congr_right hnodup, pinMapOf_eq_some_iff]
  simp only [and_assoc]

/-! ### The signals of a frame (R136) -/

/-- A byte with the bits of `n` on the four data positions has `n` as its nibble. -/
theorem nibbleOf_eq {pm : PinMap} {b : Byte} {n : Nibble} (h4 : b.getLsbD pm.d4.val = n.getLsbD 0)
    (h5 : b.getLsbD pm.d5.val = n.getLsbD 1) (h6 : b.getLsbD pm.d6.val = n.getLsbD 2)
    (h7 : b.getLsbD pm.d7.val = n.getLsbD 3) : nibbleOf pm b = n := by
  rw [nibbleOf, h4, h5, h6, h7]
  clear h4 h5 h6 h7
  revert n
  decide

/-- Under a valid pin map every signal is read back from a base frame. -/
theorem encodeFrame_signals {pm : PinMap} (h : pm.Valid) (bl rs : Bool) (n : Nibble) :
    nibbleOf pm (encodeFrame pm bl rs n) = n ∧
    (encodeFrame pm bl rs n).getLsbD pm.rs.val = rs ∧
    (encodeFrame pm bl rs n).getLsbD pm.rw.val = false ∧
    (encodeFrame pm bl rs n).getLsbD pm.en.val = false ∧
    (encodeFrame pm bl rs n).getLsbD pm.bl.val = (bl ^^ pm.pol) := by
  obtain ⟨hrw, hbl⟩ := busByte_levels h ⟨rs, n, .inl rfl⟩
  have hd := h
  simp only [PinMap.Valid, PinMap.positions, List.nodup_cons, List.mem_cons, not_or] at hd
  obtain ⟨⟨-, -, hrs4, hrs5, hrs6, hrs7, -⟩, -, -, ⟨h45, h46, h47, -⟩, ⟨h56, h57, -⟩, ⟨h67, -⟩, -⟩ := hd
  refine ⟨nibbleOf_eq ?_ ?_ ?_ ?_, ?_, hrw, encodeFrame_enable_low h bl rs n, hbl⟩
  all_goals
    rw [everyFrameBitIsItsSignal pm bl rs n _ h]
    simp [*, Ne.symm]

/-- Settles O7: the two frames are the base frames of the two nibbles. -/
theorem framesDecodeToTheValue : Obligations.FramesDecodeToTheValue := by
  intro pm bl rs v h
  obtain ⟨hn, hrs, hrw, hen, hbl⟩ := encodeFrame_signals h bl rs (highNibble v)
  obtain ⟨ln, lrs, lrw, len, lbl⟩ := encodeFrame_signals h bl rs (lowNibble v)
  exact ⟨hn, ln, hrs, lrs, hrw, lrw, hen, len, hbl, lbl⟩

end Sys2Proof.Machine
end

section
/-!
PROOFS. The strobe of one nibble frame (41_nibble_write.md R150) and the SET_MODE command (42_mode_state.md
R190).
-/

namespace Sys2Proof.Machine

open Sys2Proof

/-- A nibble frame under the spec's delays: the data set up, enable raised and held, enable lowered (R150). -/
theorem nibbleOps_spec (pm : PinMap) (bl rs : Bool) (n : Nibble) : nibbleOps Config.spec pm bl rs n =
    [.wait 1, .tx (encodeFrame pm bl rs n), .wait 1, .tx (encodeFrame pm bl rs n ||| bit pm.en), .wait 200,
      .wait 1, .tx (encodeFrame pm bl rs n), .wait 30] := rfl

/-- Settles O9: the counts are read off the list; the frame of the example is computed. -/
theorem nibbleFrameIsStrobed : Obligations.NibbleFrameIsStrobed := by
  constructor
  · intro pm bl rs n f
    have hops := nibbleOps_spec pm bl rs n
    exact ⟨hops, by rw [hops]; rfl, by rw [hops]; rfl, waitSum_nibbleOps_spec pm bl rs n⟩
  · rw [nibbleOps_spec]
    decide

/-- Settles O18: what is launched is the commit of the new MODE, from the state that holds it. -/
theorem setModeAppliesThenCommits : Obligations.SetModeAppliesThenCommits := by
  intro s ss hc hl
  rw [← hc]
  exact ready_launches (u := s.withMode (applySetters ss s.mode)) (fun _ => rfl) hl rfl hc (program_commitOps ..)

end Sys2Proof.Machine
end

section
/-!
PROOFS. The setters as writes of one bit of MODE, lists of them, and the laws of R200 and R187
(42_mode_state.md R170 to R187, R191 to R200).
-/

namespace Sys2Proof.Machine

open Sys2Proof

/-! ### A setter writes one bit of one field (R170 to R186) -/

/-- The three fields of MODE (R31). -/
inductive ModeField where
  | entry | display | function
deriving DecidableEq

/-- A field of a mode. -/
def Mode.field (m : Mode) : ModeField → Byte
  | .entry => m.entry
  | .display => m.display
  | .function => m.function

/-- One bit of MODE: its field, and its position there. -/
abbrev ModeBit := ModeField × Pos

/-- The value of one bit of a mode. -/
def Mode.bit (m : Mode) (p : ModeBit) : Bool := (m.field p.1).getLsbD p.2.val

/-- The bit that a pair of setters writes; the codes of a pair differ in bit 0 only (R92). -/
def pairBit (c : Byte) : ModeBit :=
  match c.toNat with
  | 0 => (.entry, 1)
  | 1 => (.entry, 0)
  | 2 => (.display, 2)
  | 3 => (.display, 1)
  | 4 => (.display, 0)
  | 5 => (.function, 4)
  | 6 => (.function, 3)
  | _ => (.function, 2)

/-- The bit a setter writes. -/
def Setter.target (x : Setter) : ModeBit := pairBit (x.code >>> 1)

/-- The value a setter writes. -/
def Setter.value : Setter → Bool
  | .entryIncrement | .entryShiftOn | .displayOn | .cursorOn | .blinkOn => true
  | .eightBitMode | .twoLine | .dots5x10 => true
  | .entryDecrement | .entryShiftOff | .displayOff | .cursorOff | .blinkOff => false
  | .fourBitMode | .oneLine | .dots5x8 => false

/-- A byte with one bit written. -/
def writeBit (e : Byte) (i : Pos) (b : Bool) : Byte := if b then e ||| bit i else e &&& ~~~ bit i

theorem getLsbD_writeBit (e : Byte) (i j : Pos) (b : Bool) :
    (writeBit e i b).getLsbD j.val = if j = i then b else e.getLsbD j.val := by
  have hj := j.isLt
  cases b
  · rw [writeBit, if_neg Bool.false_ne_true, BitVec.getLsbD_and, BitVec.getLsbD_not, getLsbD_bit]
    by_cases h : j = i <;> simp [h, hj]
  · rw [writeBit, if_pos rfl, BitVec.getLsbD_or, getLsbD_bit]
    by_cases h : j = i <;> simp [h]

/-- A mode with one bit written. -/
def Mode.write (m : Mode) (p : ModeBit) (b : Bool) : Mode :=
  match p.1 with
  | .entry => { m with entry := writeBit m.entry p.2 b }
  | .display => { m with display := writeBit m.display p.2 b }
  | .function => { m with function := writeBit m.function p.2 b }

/-- A setter writes its value to its bit. -/
theorem apply_eq_write (x : Setter) (m : Mode) :
    Setter.apply x m = m.write (Setter.target x) (Setter.value x) := by
  cases x <;> rfl

theorem field_write (m : Mode) (f g : ModeField) (i : Pos) (b : Bool) :
    (m.write (f, i) b).field g = if g = f then writeBit (m.field g) i b else m.field g := by
  cases f <;> cases g <;> rfl

theorem bit_write (m : Mode) (p q : ModeBit) (b : Bool) :
    (m.write p b).bit q = if q = p then b else m.bit q := by
  obtain ⟨f, i⟩ := p
  obtain ⟨g, j⟩ := q
  simp only [Mode.bit, field_write, Prod.mk.injEq]
  by_cases hf : g = f
  · simp only [hf, if_true, true_and, getLsbD_writeBit]
  · simp only [hf, if_false, false_and]

theorem bit_apply (x : Setter) (m : Mode) (p : ModeBit) :
    (Setter.apply x m).bit p = if p = Setter.target x then Setter.value x else m.bit p := by
  rw [apply_eq_write, bit_write]

/-- Bytes with the same bits are the same. -/
theorem byte_eq_of_bits {a b : Byte} (h : ∀ i : Pos, a.getLsbD i.val = b.getLsbD i.val) : a = b :=
  BitVec.eq_of_getLsbD_eq fun i hi => h ⟨i, hi⟩

/-- Modes with the same bits are the same. -/
theorem Mode.eq_of_bits {m n : Mode} (h : ∀ p, m.bit p = n.bit p) : m = n := by
  obtain ⟨e, d, f⟩ := m
  obtain ⟨e', d', f'⟩ := n
  obtain rfl : e = e' := byte_eq_of_bits fun i => h (.entry, i)
  obtain rfl : d = d' := byte_eq_of_bits fun i => h (.display, i)
  obtain rfl : f = f' := byte_eq_of_bits fun i => h (.function, i)
  rfl

/-! ### Pairs of setters (R92): codes that differ in bit 0 only -/

/-- Different pairs write different bits. -/
theorem pairBit_inj {c d : Byte} (hc : c.toNat < 8) (hd : d.toNat < 8) (h : pairBit c = pairBit d) : c = d := by
  have hinj : ∀ i j : Fin 8, pairBit (.ofNat 8 i) = pairBit (.ofNat 8 j) → i = j := by decide
  exact BitVec.eq_of_toNat_eq (Fin.mk.inj (hinj ⟨c.toNat, hc⟩ ⟨d.toNat, hd⟩ (by simpa using h)))

theorem target_eq_iff_pair (x y : Setter) :
    Setter.target x = Setter.target y ↔ x.code >>> 1 = y.code >>> 1 := by
  have hlt (z : Setter) : (z.code >>> 1).toNat < 8 := by cases z <;> decide
  exact ⟨pairBit_inj (hlt x) (hlt y), congrArg pairBit⟩

/-- Of two setters of one pair the later decides. -/
theorem apply_apply_of_pair {x y : Setter} (h : x.code >>> 1 = y.code >>> 1) (m : Mode) :
    Setter.apply y (Setter.apply x m) = Setter.apply y m := by
  refine Mode.eq_of_bits fun p => ?_
  simp only [bit_apply, (target_eq_iff_pair x y).mpr h]
  split <;> rfl

/-- Setters of different pairs commute. -/
theorem apply_comm_of_not_pair {x y : Setter} (h : x.code >>> 1 ≠ y.code >>> 1) (m : Mode) :
    Setter.apply y (Setter.apply x m) = Setter.apply x (Setter.apply y m) := by
  have ht : Setter.target x ≠ Setter.target y := mt (target_eq_iff_pair x y).mp h
  refine Mode.eq_of_bits fun p => ?_
  simp only [bit_apply]
  by_cases hx : p = Setter.target x
  · simp [hx, ht]
  · simp [hx]

/-- A setter leaves the other two fields as they are. -/
theorem apply_other_fields (x : Setter) (m : Mode) :
    (x.code.toNat < 0x04 ∧ (Setter.apply x m).display = m.display ∧
      (Setter.apply x m).function = m.function) ∨
    (0x04 ≤ x.code.toNat ∧ x.code.toNat < 0x0A ∧ (Setter.apply x m).entry = m.entry ∧
      (Setter.apply x m).function = m.function) ∨
    (0x0A ≤ x.code.toNat ∧ (Setter.apply x m).entry = m.entry ∧
      (Setter.apply x m).display = m.display) := by
  cases x
  case entryIncrement | entryDecrement | entryShiftOn | entryShiftOff =>
    exact .inl ⟨by decide, rfl, rfl⟩
  case displayOn | displayOff | cursorOn | cursorOff | blinkOn | blinkOff =>
    exact .inr (.inl ⟨by decide, by decide, rfl, rfl⟩)
  case fourBitMode | eightBitMode | oneLine | twoLine | dots5x8 | dots5x10 =>
    exact .inr (.inr ⟨by decide, rfl, rfl⟩)

/-! ### The modes the setters reach (R200) -/

/-- Setters that write bits of `n` bring every bit they write, and every bit that agrees already, to `n`. -/
theorem bit_applySetters {n : Mode} {p : ModeBit} {xs : List Setter}
    (hv : ∀ x ∈ xs, Setter.value x = n.bit (Setter.target x)) {m : Mode}
    (h : (∃ x ∈ xs, Setter.target x = p) ∨ m.bit p = n.bit p) : (applySetters xs m).bit p = n.bit p := by
  induction xs generalizing m with
  | nil => exact h.resolve_left (by simp)
  | cons x xs ih =>
    rw [List.forall_mem_cons] at hv
    refine ih hv.2 ?_
    rw [bit_apply]
    by_cases hx : p = Setter.target x
    · exact .inr (by simp [hx, hv.1])
    · simpa [hx, Ne.symm hx] using h

/-- The sixteen setters in the order of their codes. -/
def allSetters : List Setter := (List.range 16).filterMap fun c => Setter.ofCode (BitVec.ofNat 8 c)

/-- The setters that write the bits a mode has. -/
def settersTo (n : Mode) : List Setter :=
  allSetters.filter fun x => Setter.value x = n.bit (Setter.target x)

theorem mem_settersTo {n : Mode} {x : Setter} :
    x ∈ settersTo n ↔ x ∈ allSetters ∧ Setter.value x = n.bit (Setter.target x) := by
  simp [settersTo]

/-- The mask of a field (R31). -/
def fieldMask : ModeField → Byte
  | .entry => 0xFC
  | .display => 0xF8
  | .function => 0xE3

/-- The mask covers exactly the bits for which there is no setter of a given value. -/
theorem setter_or_masked (p : ModeBit) (b : Bool) :
    (∃ x ∈ allSetters, Setter.target x = p ∧ Setter.value x = b) ∨
    (fieldMask p.1).getLsbD p.2.val = true := by
  obtain ⟨f, i⟩ := p
  revert b i
  cases f <;> decide

/-- A masked bit is 0. -/
theorem bit_of_masked {m : Mode} (h : m.Masked) {p : ModeBit}
    (hp : (fieldMask p.1).getLsbD p.2.val = true) : m.bit p = false := by
  have hm : m.field p.1 &&& fieldMask p.1 = 0 := by
    obtain ⟨he, hd, hf⟩ := h
    obtain ⟨f, i⟩ := p
    cases f
    · exact he
    · exact hd
    · exact hf
  have hbit : (m.bit p && (fieldMask p.1).getLsbD p.2.val) = false := by
    rw [Mode.bit, ← BitVec.getLsbD_and, hm]
    exact BitVec.getLsbD_zero
  rwa [hp, Bool.and_true] at hbit

/-- Between modes that meet the masks, the setters of the second lead from the first to it. -/
theorem applySetters_settersTo {m n : Mode} (hm : m.Masked) (hn : n.Masked) :
    applySetters (settersTo n) m = n := by
  refine Mode.eq_of_bits fun p => bit_applySetters (fun x hx => (mem_settersTo.mp hx).2) ?_
  obtain ⟨x, hx, rfl, hv⟩ | hp := setter_or_masked p (n.bit p)
  · exact .inl ⟨x, mem_settersTo.mpr ⟨hx, hv⟩, rfl⟩
  · exact .inr ((bit_of_masked hm hp).trans (bit_of_masked hn hp).symm)

theorem masked_default : Mode.default.Masked := by decide

theorem masked_iff_reached (m : Mode) : m.Masked ↔ ∃ xs, applySetters xs Mode.default = m :=
  ⟨fun h => ⟨settersTo m, applySetters_settersTo masked_default h⟩,
    fun ⟨xs, h⟩ => h ▸ masked_applySetters masked_default xs⟩

/-! ### The number of the masked modes -/

/-- The bytes that have no bit of the mask. -/
def maskedBytes (k : Byte) : List Byte :=
  ((List.finRange 256).map BitVec.ofFin).filter fun e => e &&& k = 0

theorem nodup_maskedBytes (k : Byte) : (maskedBytes k).Nodup :=
  ((List.nodup_finRange 256).map fun _ _ h => congrArg BitVec.toFin h).filter _

theorem mem_maskedBytes {k e : Byte} : e ∈ maskedBytes k ↔ e &&& k = 0 := by
  have he : e ∈ (List.finRange 256).map BitVec.ofFin := List.mem_map.mpr ⟨e.toFin, List.mem_finRange _, rfl⟩
  simp [maskedBytes, he]

/-- The modes that meet the masks: every combination of the values of the three fields. -/
def maskedModes : List Mode :=
  (maskedBytes 0xFC ×ˢ maskedBytes 0xF8 ×ˢ maskedBytes 0xE3).map fun x => ⟨x.1, x.2.1, x.2.2⟩

theorem nodup_maskedModes : maskedModes.Nodup := by
  refine List.Nodup.map ?_
    ((nodup_maskedBytes _).product ((nodup_maskedBytes _).product (nodup_maskedBytes _)))
  rintro ⟨e, d, f⟩ ⟨e', d', f'⟩ h
  cases h
  rfl

theorem length_maskedModes : maskedModes.length = 4 * (8 * 8) := by
  have he : (maskedBytes 0xFC).length = 4 := by decide
  have hd : (maskedBytes 0xF8).length = 8 := by decide
  have hf : (maskedBytes 0xE3).length = 8 := by decide
  rw [maskedModes, List.length_map, List.length_product, List.length_product, he, hd, hf]

theorem mem_maskedModes (m : Mode) : m ∈ maskedModes ↔ m.Masked := by
  simp only [maskedModes, List.mem_map, Prod.exists, List.mem_product, mem_maskedBytes]
  exact ⟨fun ⟨_, _, _, h, hm⟩ => hm ▸ h, fun h => ⟨_, _, _, h, rfl⟩⟩

/-! ### CLEAR and the queries (R191 to R199) -/

/-- CLEAR keeps what the queries read. -/
theorem clear_keeps {s t : State} (h : exec .clear s = .next t) : t.life = s.life ∧ t.mode = s.mode := by
  obtain ⟨t', ht, heffect⟩ := exec_effect .clear s
  obtain rfl : t' = t := Host.Outcome.next.inj (ht.symm.trans h)
  cases heffect with
  | refuse => exact ⟨rfl, rfl⟩
  | answer i v hl => rw [answer_ready hl]; exact ⟨rfl, rfl⟩
  | send => exact ⟨rfl, rfl⟩

/-- A checked command that answers a function of MODE. -/
def AnswersMode (i : Instr) : Prop :=
  ∃ g : Mode → Byte, ∀ s, exec i s = s.whenReady fun s => .next (s.answer (g s.mode))

theorem query_answersMode {q : Instr} (h : q ∈ [Instr.qEntryIncrement, .qShiftOn, .qDisplayOn, .qCursorOn,
    .qBlinkOn, .qBusWidth, .qLineCount]) : AnswersMode q := by
  simp only [List.mem_cons, List.not_mem_nil, or_false] at h
  obtain rfl | rfl | rfl | rfl | rfl | rfl | rfl := h
  · exact ⟨fun m => boolValue (m.entry.getLsbD 1), fun _ => rfl⟩
  · exact ⟨fun m => boolValue (m.entry.getLsbD 0), fun _ => rfl⟩
  · exact ⟨fun m => boolValue (m.display.getLsbD 2), fun _ => rfl⟩
  · exact ⟨fun m => boolValue (m.display.getLsbD 1), fun _ => rfl⟩
  · exact ⟨fun m => boolValue (m.display.getLsbD 0), fun _ => rfl⟩
  · exact ⟨busWidthValue, fun _ => rfl⟩
  · exact ⟨lineCountValue, fun _ => rfl⟩

/-- States with the same lifecycle state and the same MODE get the same value. -/
theorem rspValue_congr {q : Instr} (hq : AnswersMode q) {s t v w : State} (hlife : t.life = s.life)
    (hmode : t.mode = s.mode) (hv : exec q s = .next v) (hw : exec q t = .next w) :
    w.rspValue = v.rspValue := by
  obtain ⟨g, hg⟩ := hq
  rw [hg] at hv hw
  by_cases hl : s.life = .ready
  · rw [whenReady_ready hl] at hv
    rw [whenReady_ready (hlife.trans hl), hmode] at hw
    cases hv
    cases hw
    rfl
  · rw [whenReady_notReady hl] at hv
    rw [whenReady_notReady (hlife ▸ hl)] at hw
    cases hv
    cases hw
    rfl

/-! ### The laws -/

/-- Settles O15: a setter writes one bit, so its pair and itself it overrides; the masked modes are reached
bit by bit, and CLEAR keeps what a query reads. -/
theorem setterLaws : Obligations.SetterLaws := by
  refine ⟨fun x m => apply_apply_of_pair rfl m, fun x y m h => apply_apply_of_pair h m, apply_other_fields,
    fun x m h => masked_apply h x, masked_default, ?_, masked_iff_reached,
    maskedModes, nodup_maskedModes, length_maskedModes, mem_maskedModes⟩
  intro s t q v w hq ht hv hw
  obtain ⟨hlife, hmode⟩ := clear_keeps ht
  exact rspValue_congr (query_answersMode hq) hlife hmode hv hw

/-- Settles O16: the two setters are applied one after the other to the mode the list before them leaves. -/
theorem settersApplyLeftToRight : Obligations.SettersApplyLeftToRight := by
  have happly (xs ys : List Setter) (x y : Setter) (m : Mode) : applySetters (xs ++ [x, y] ++ ys) m =
      applySetters ys (Setter.apply y (Setter.apply x (applySetters xs m))) := by
    simp [applySetters]
  refine ⟨fun _ => rfl, fun _ _ _ => rfl, fun x y xs ys m h => ?_, fun x y xs ys m h => ?_, by decide⟩
  · rw [happly, apply_apply_of_pair h]
    simp [applySetters]
  · rw [happly, happly, apply_comm_of_not_pair h]

end Sys2Proof.Machine
end

section
/-!
PROOFS. What the programs of the host commands cost: their bus writes and the sum of their waits
(43_init_sequencer.md R223; 44_display_api.md R243, R250; the table of R340).
-/

namespace Sys2Proof.Machine

open Sys2Proof

/-- A program's bus writes and the sum of its waits in microseconds (R340). -/
def Costs (p : List MicroOp) (writes waits : Nat) : Prop :=
  (txBytes p).length = writes ∧ waitSum p = waits

/-- Costs of programs that follow each other add up. -/
theorem Costs.append {p q : List MicroOp} {m n a b : Nat} (hp : Costs p m a) (hq : Costs q n b) :
    Costs (p ++ q) (m + n) (a + b) := by
  obtain ⟨hpw, hps⟩ := hp
  obtain ⟨hqw, hqs⟩ := hq
  exact ⟨by rw [txBytes_append, List.length_append, hpw, hqw], by rw [waitSum_append, hps, hqs]⟩

/-! ### The programs under the spec's delays -/

section
variable {cfg : Config} (hc : cfg = Config.spec) (pm : PinMap) (bl : Bool)
include hc

/-- A byte costs its two nibble frames and its settle delay. -/
theorem costs_byteOps {rs : Bool} {v : Byte} {n : Nat} (hn : 466 + settleOf Config.spec rs v = n) :
    Costs (byteOps cfg pm bl rs v) 6 n := by
  subst hc
  exact ⟨rfl, (waitSum_byteOps_spec pm bl rs v).trans hn⟩

/-- A set-address byte is at least 0x80, so not of the long settle class. -/
theorem settle_setAddressByte (a : Byte) :
    466 + settleOf Config.spec false (setAddressByte cfg a) = 506 := by
  subst hc
  have ha : 4 ≤ (setAddressByte Config.spec a).toNat := le_trans (by decide) (le_toNat_or 0x80 a)
  rw [settleOf_spec_of_four_le false ha]

/-- A data byte has the ordinary settle delay, whatever its value. -/
theorem costs_dataOps (v : Byte) : Costs (dataOps cfg pm bl v) 6 506 :=
  costs_byteOps hc pm bl rfl

theorem costs_dataListOps (l : List Byte) :
    Costs (dataListOps cfg pm bl l) (6 * l.length) (506 * l.length) := by
  induction l with
  | nil => exact ⟨rfl, rfl⟩
  | cons v l ih =>
    rw [List.length_cons, Nat.mul_succ, Nat.mul_succ, Nat.add_comm _ 6, Nat.add_comm _ 506]
    exact (costs_dataOps hc pm bl v).append ih

/-- An instruction byte of the ordinary settle class and data after it (R243, R250). -/
theorem costs_stream {v : Byte} (hv : 466 + settleOf Config.spec false v = 506) (l : List Byte) :
    Costs (instrOps cfg pm bl v ++ dataListOps cfg pm bl l) (6 * (1 + l.length)) (506 * (1 + l.length)) := by
  rw [Nat.mul_add, Nat.mul_add]
  exact (costs_byteOps hc pm bl hv).append (costs_dataListOps hc pm bl l)

theorem costs_commitOps (m : Mode) : Costs (commitOps cfg pm bl m) 18 1518 := by
  subst hc
  obtain ⟨-, -, hwrites, hwaits⟩ := commitSendsEntryDisplayFunction.1 pm bl m
  exact ⟨hwrites, hwaits⟩

theorem costs_initOps (m : Mode) : Costs (initOps cfg pm bl m) 36 23796 := by
  subst hc
  obtain ⟨-, hwrites, hwaits, -⟩ := initializationListIsTheSevenSteps pm bl m
  exact ⟨hwrites, hwaits⟩

end

/-! ### The commands -/

/-- A valid CONSTRUCT costs the initialization. -/
theorem construct_costs {s t : State} (hc : s.cfg = Config.spec) {p : PinBytes} (hp : validatePinMap p ≠ none)
    {ss : List Setter} (h : exec (.construct p ss) s = .next t) : Costs t.prog 36 23796 := by
  obtain ⟨pm, hpm⟩ := Option.ne_none_iff_exists'.mp hp
  rw [construct_valid hpm ss s] at h
  cases h
  exact costs_initOps hc ..

section
variable {s t u : State} {i : Instr} {k : State → Host.Outcome State Fault Refusal} (hl : s.life = .ready)
include hl

/-- On a ready engine a checked command costs what the program it launches costs. -/
theorem ready_costs {p : List MicroOp} {writes waits : Nat} (hk : ∀ s, exec i s = s.whenReady k)
    (hp : k s = .next (u.launch p)) (hcosts : Costs p writes waits) (h : exec i s = .next t) :
    Costs t.prog writes waits := by
  rwa [prog_of_launches hk hl hp h]

/-- On a ready engine a checked command that sends one byte. -/
theorem ready_byte_costs {rs : Bool} {v : Byte} {n : Nat} (hk : ∀ s, exec i s = s.whenReady k)
    (hp : k s = .next (u.launch (byteOps u.cfg u.pm u.bl rs v))) (hc : u.cfg = Config.spec)
    (hn : 466 + settleOf Config.spec rs v = n) (h : exec i s = .next t) : Costs t.prog 6 n :=
  ready_costs hl hk hp (costs_byteOps hc u.pm u.bl hn) h

/-- On a ready engine a query has an empty program. -/
theorem query_costs (hi : AnswersMode i) (h : exec i s = .next t) : Costs t.prog 0 0 := by
  obtain ⟨g, hg⟩ := hi
  rw [ready_answers hg hl rfl] at h
  cases h
  exact ⟨rfl, rfl⟩

end

/-- Settles O29: CONSTRUCT costs the initialization, a query nothing, and every other command the program it
launches, in which only a clear, home or raw instruction byte can have the long settle delay. -/
theorem busWriteAndWaitTotals : Obligations.BusWriteAndWaitTotals := by
  intro s t p ss line column v l hc costs
  refine ⟨fun hp => construct_costs hc hp, fun hl => ⟨?setMode, ?clear, ?home, ?shiftLeft, ?shiftRight,
    ?writeChar, ?setCursorAddress, ?backlightOn, ?backlightOff, ?writeInstruction, ?displayString,
    ?loadCustomChars, ?queries⟩⟩
  case setMode => exact ready_costs hl (fun _ => rfl) rfl (costs_commitOps hc ..)
  case clear =>
    have hclear : Costs (instrOps s.cfg s.pm s.bl s.cfg.lcdClear) 6 2066 :=
      costs_byteOps hc s.pm s.bl (by rw [hc]; rfl)
    exact ready_costs hl (fun _ => rfl) rfl (hclear.append (costs_commitOps hc s.pm s.bl s.mode))
  case home | shiftLeft | shiftRight =>
    exact ready_byte_costs hl (fun _ => rfl) rfl hc (by rw [hc]; rfl)
  case writeChar => exact ready_byte_costs hl (fun _ => rfl) rfl hc rfl
  case setCursorAddress => exact ready_byte_costs hl (fun _ => rfl) rfl hc (settle_setAddressByte hc v)
  case backlightOn =>
    exact ready_byte_costs (u := s.withBacklight true) hl (fun _ => rfl) rfl hc (by rw [hc]; rfl)
  case backlightOff =>
    exact ready_byte_costs (u := s.withBacklight false) hl (fun _ => rfl) rfl hc (by rw [hc]; rfl)
  case writeInstruction =>
    refine ready_byte_costs hl (fun _ => rfl) rfl hc ?_
    simp only [settleOf_spec, true_and]
    split_ifs <;> rfl
  case displayString =>
    intro hline
    exact ready_costs hl (fun _ => rfl) (if_neg (by omega))
      (costs_stream hc _ _ (settle_setAddressByte hc _) l)
  case loadCustomChars =>
    intro hlen
    have hrows : Costs _ (6 * (1 + 64)) (506 * (1 + 64)) :=
      hlen ▸ costs_stream hc s.pm s.bl (v := s.cfg.setCgram) (by rw [hc]; rfl) l
    exact ready_costs hl (fun _ => rfl) rfl hrows
  case queries => exact fun q hq => query_costs hl (query_answersMode hq)

end Sys2Proof.Machine
end

section
/-!
PROOFS. Commands without a ready connection (60_exceptions.md R270, R274, R282, R285).
-/

namespace Sys2Proof.Machine

open Sys2Proof

/-- A command that begins with the check of the lifecycle is refused by an engine that is not ready (R274). -/
theorem checked_refused {s : State} {i : Instr} {k : State → Host.Outcome State Fault Refusal}
    (hc : ∀ s, exec i s = s.whenReady k) (hl : s.life ≠ .ready) :
    exec i s = .next (s.raise .notReady) := by
  rw [hc, whenReady_notReady hl]

/-- Settles O28: each of the nineteen commands begins with the check of the lifecycle, and a refusal writes
only BUSY and the response. -/
theorem notReadyRefusesEverythingButConstruct : Obligations.NotReadyRefusesEverythingButConstruct := by
  intro s ss x y l hl i hi
  have hchecks : ∃ k, ∀ s, exec i s = s.whenReady k := by
    simp only [List.mem_cons, List.not_mem_nil, or_false] at hi
    obtain rfl | rfl | rfl | rfl | rfl | rfl | rfl | rfl | rfl | rfl | rfl | rfl | rfl | rfl | rfl | rfl |
      rfl | rfl | rfl := hi
    all_goals exact ⟨_, fun _ => rfl⟩
  obtain ⟨k, hk⟩ := hchecks
  exact checked_refused hk hl

end Sys2Proof.Machine
end
